-- ==== Sys2Proof/Word.lean ====
section
/-! DEFINITION. The word types of the engine (spec 00_scope.md R10 to R12): bytes, 32-bit words and byte strings. -/

namespace Sys2Proof

/-- One byte, 0..255 (00_scope.md R11). -/
abbrev Byte := BitVec 8

/-- A register value or a command word (10_state.md section 3: every register is 32 bits). -/
abbrev Word := BitVec 32

/-- A byte string, index 0 first (00_scope.md R12). -/
abbrev Bytes := List (BitVec 8)

end Sys2Proof
end

