-- ==== Sys2Proof/Config.lean ====
section
/-! DEFINITION. What an implementation fixes (the parameters of spec 00_scope.md R8) and the free values of the model. -/

namespace Sys2Proof

/-- The parameters of 00_scope.md R8, with the defaults the rule gives. One instance of the engine has one value of
this record; State carries it and no step writes it (log 3). -/
structure Params where
  /-- Bytes of data memory, 1..65536 (00_scope.md R8, D5). -/
  dmemSize : Nat := 65536
  /-- Bytes of dictionary memory (00_scope.md R8, D14). -/
  dictCap : Nat := 16384
  deriving DecidableEq, Repr

/-- The free draws of 10_state.md R54: the n-th unspecified 32-bit value a host read returns. It has no body, so no
proof can see a value of it; State.draws counts the draws taken, so each read gets a fresh one (log 5).
DESIGN CHOICE of form; safe. -/
opaque Config.freeWord : Nat → BitVec 32

end Sys2Proof
end

