-- ==== Sys2Proof/Syntax.lean ====
section
/-! DEFINITION. The commands of the engine (spec 30_encoding.md R112), one constructor per row of spec/opcode_table.json. -/

namespace Sys2Proof

/-- The fourteen commands. None has an operand field: every operand comes from the latched operand registers
(30_encoding.md R111), so every constructor is a plain name. -/
inductive Instr where
  /-- 46_control.md R320. -/
  | nop
  /-- 42_hex_sequence.md R191. -/
  | hexenc
  /-- 42_hex_sequence.md R195. -/
  | hexdec
  /-- 42_hex_sequence.md R200. -/
  | xor
  /-- 42_hex_sequence.md R206. -/
  | repxor
  /-- 42_hex_sequence.md R210. -/
  | hamming
  /-- 43_base64.md R233. -/
  | b64enc
  /-- 43_base64.md R238. -/
  | b64dec
  /-- 44_frequency.md R264. -/
  | dictload
  /-- 44_frequency.md R268. -/
  | wordhits
  /-- 44_frequency.md R273. -/
  | letterscore
  /-- 45_xor_breaker.md R296. -/
  | breakscore
  /-- 45_xor_breaker.md R301. -/
  | breakhits
  /-- 46_control.md R321. -/
  | reset
  deriving DecidableEq, Repr

end Sys2Proof
end

