-- ==== Sys2Proof/Machine/HostSyntax.lean ====
section
/-! DEFINITION. What the host can say to the engine: bus accesses (spec 30_encoding.md R118), the registers by name
(10_state.md section 3) and the host assembly of 30_encoding.md R116 and R117. -/

namespace Sys2Proof.Machine

/-- Read or write, the first part of a transaction's encoding (30_encoding.md R116). -/
inductive AccessKind where
  | read
  | write
  deriving DecidableEq, Repr

/-- The width of a host access in bits. 16 is never supported (20_memory.md R82). -/
inductive AccessWidth where
  | w8
  | w16
  | w32
  deriving DecidableEq, Repr

/-- One host-port transaction as 30_encoding.md R118 encodes it: kind, host offset, width, data. The data of a read is
not looked at; an 8-bit write uses data bits 7:0. -/
structure Access where
  kind : AccessKind
  offset : Nat
  width : AccessWidth
  data : Word := 0#32
  deriving DecidableEq, Repr

/-- The registers of 10_state.md section 3. -/
inductive RegName where
  | id
  | cmd
  | status
  | aAddr
  | aLen
  | bAddr
  | bLen
  | dAddr
  | outLen
  | result
  | key
  | dictLen
  | freq (b : Byte)
  deriving DecidableEq, Repr

/-- A label of a host program (30_encoding.md R116). Names are numbers here (log 18); `fail` is the label CHECK
branches to and `wait n` the label a WAIT at statement n makes (30_encoding.md R117). -/
inductive Label where
  | fail
  | user (n : Nat)
  | wait (site : Nat)
  deriving DecidableEq, Repr

/-- A statement the host agent runs (30_encoding.md R116): a transaction, a label, the branch BIT.NZ, or HALT. -/
inductive HostStmt where
  | access (a : Access)
  | mark (l : Label)
  | bitNZ (r : RegName) (bit : Nat) (l : Label)
  | halt
  deriving DecidableEq, Repr

/-- A line of host assembly: the statements of 30_encoding.md R116 and the pseudo-instructions of R117. -/
inductive AsmStmt where
  | regW (r : RegName) (v : Word)
  | regR (r : RegName)
  | memWB (a : Nat) (v : Byte)
  | memWW (a : Nat) (v : Word)
  | memRB (a : Nat)
  | memRW (a : Nat)
  | cmd (i : Instr)
  | label (l : Label)
  | bitNZ (r : RegName) (bit : Nat) (l : Label)
  | halt
  | wait
  | data (a : Nat) (s : Bytes)
  | ops (aa al ba bl da : Word)
  | run (i : Instr) (aa al ba bl da : Word)
  | clrovr
  | check
  deriving DecidableEq, Repr

/-- What one host read returned: the offset and width read and the value, zero-extended to 32 bits (log 15). -/
structure ReadRecord where
  offset : Nat
  width : AccessWidth
  value : Word
  deriving DecidableEq, Repr

end Sys2Proof.Machine
end

