-- ==== Sys2Proof/WellFormed.lean ====
section
/-! DEFINITION. What is well formed: parameters (spec 00_scope.md R8), command words (30_encoding.md R110, R112, R114),
host accesses (20_memory.md R81, R82) and host programs (30_encoding.md R116). -/

namespace Sys2Proof

/-- The ranges and the constraint of 00_scope.md R8: 1 <= DMEM_SIZE <= 65536 and DMEM_SIZE * DICT_CAP < 2^32. -/
def Params.wf (p : Params) : Bool :=
  decide (1 ≤ p.dmemSize) && decide (p.dmemSize ≤ 65536) && decide (p.dmemSize * p.dictCap < 4294967296)

/-- A command has no operand field to get wrong (30_encoding.md R111): every command is well formed. -/
def Instr.wf : Instr → Bool
  | .nop | .hexenc | .hexdec | .xor | .repxor | .hamming | .b64enc | .b64dec => true
  | .dictload | .wordhits | .letterscore | .breakscore | .breakhits | .reset => true

/-- A word is an assigned command word iff RSVD = 0 and OPCODE is not one of 0x0D, 0x0E, 0x10..0xFF
(30_encoding.md R114). -/
def commandWordWf (w : Word) : Bool :=
  decide (w.toNat < 0x10) && decide (w.toNat ≠ 0x0D) && decide (w.toNat ≠ 0x0E)

namespace Machine

/-- The accesses 20_memory.md R82 supports at the offsets of R81. -/
def Access.supported (p : Params) (a : Access) : Bool :=
  match a.width with
  | .w8 => decide (0x10000 ≤ a.offset) && decide (a.offset < 0x10000 + p.dmemSize)
  | .w16 => false
  | .w32 => decide (a.offset % 4 = 0) &&
      (decide (a.offset < 0x1000) || (decide (0x10000 ≤ a.offset) && decide (a.offset + 4 ≤ 0x10000 + p.dmemSize)))

/-- The labels a host program defines, in order. -/
def labelsOf : List HostStmt → List Label
  | [] => []
  | .mark l :: t => l :: labelsOf t
  | .access _ :: t => labelsOf t
  | .bitNZ _ _ _ :: t => labelsOf t
  | .halt :: t => labelsOf t

/-- Every branch of the program names one of these labels. -/
def branchesDefined (ls : List Label) : List HostStmt → Bool
  | [] => true
  | .bitNZ _ _ l :: t => ls.contains l && branchesDefined ls t
  | .access _ :: t => branchesDefined ls t
  | .mark _ :: t => branchesDefined ls t
  | .halt :: t => branchesDefined ls t

/-- A host program is well formed when no label is defined twice and every branch has its label
(30_encoding.md R116: a label names the next statement). -/
def hostProgramWf (prog : List HostStmt) : Bool :=
  decide (labelsOf prog).Nodup && branchesDefined (labelsOf prog) prog

/-- The side conditions 30_encoding.md R116 puts on a line: `a mod 4 = 0` for MEM.WW and MEM.RW. -/
def AsmStmt.wf : AsmStmt → Bool
  | .memWW a _ => decide (a % 4 = 0)
  | .memRW a => decide (a % 4 = 0)
  | .regW _ _ | .regR _ | .memWB _ _ | .memRB _ | .cmd _ | .label _ | .bitNZ _ _ _ | .halt => true
  | .wait | .data _ _ | .ops _ _ _ _ _ | .run _ _ _ _ _ _ | .clrovr | .check => true

end Machine

end Sys2Proof
end

