-- ==== Sys2Proof/Decode.lean ====
section
/-! DEFINITION. Decoding and encoding of command words (spec 30_encoding.md R110 to R115). -/

namespace Sys2Proof

/-- Why a word is Illegal (30_encoding.md R114). Both complete with ILLEGAL_COMMAND. -/
inductive DecodeError where
  /-- RSVD (bits 31:8) is not 0. -/
  | reservedBits
  /-- OPCODE is one of 0x0D, 0x0E, 0x10..0xFF. -/
  | unassignedOpcode
  deriving DecidableEq, Repr

/-- OPCODE, bits 7:0 (30_encoding.md R110). -/
def opcodeField (w : Word) : Byte := w.extractLsb' 0 8

/-- RSVD, bits 31:8 (30_encoding.md R110). -/
def rsvdField (w : Word) : BitVec 24 := w.extractLsb' 8 24

/-- The opcode map of 30_encoding.md R112. -/
def decodeOpcode (op : Byte) : Except DecodeError Instr :=
  match op.toNat with
  | 0x00 => .ok .nop
  | 0x01 => .ok .hexenc
  | 0x02 => .ok .hexdec
  | 0x03 => .ok .xor
  | 0x04 => .ok .repxor
  | 0x05 => .ok .hamming
  | 0x06 => .ok .b64enc
  | 0x07 => .ok .b64dec
  | 0x08 => .ok .dictload
  | 0x09 => .ok .wordhits
  | 0x0A => .ok .letterscore
  | 0x0B => .ok .breakscore
  | 0x0C => .ok .breakhits
  | 0x0F => .ok .reset
  | _ => .error .unassignedOpcode

/-- Decoding is total on all 2^32 words and rejects by name (30_encoding.md R113). -/
def decode (w : Word) : Except DecodeError Instr :=
  if rsvdField w ≠ 0#24 then .error .reservedBits else decodeOpcode (opcodeField w)

/-- The word of a command: OPCODE in bits 7:0, RSVD 0 (30_encoding.md R110, R112). -/
def encode : Instr → Word
  | .nop => 0x00000000#32
  | .hexenc => 0x00000001#32
  | .hexdec => 0x00000002#32
  | .xor => 0x00000003#32
  | .repxor => 0x00000004#32
  | .hamming => 0x00000005#32
  | .b64enc => 0x00000006#32
  | .b64dec => 0x00000007#32
  | .dictload => 0x00000008#32
  | .wordhits => 0x00000009#32
  | .letterscore => 0x0000000A#32
  | .breakscore => 0x0000000B#32
  | .breakhits => 0x0000000C#32
  | .reset => 0x0000000F#32

/-- The command word that the opcode table's numbering names: the low nbits of w, zeros above. A command is one 32-bit
word written in one register write (30_encoding.md R115), so no bytes are laid out. -/
def tableWord (nbits w : Nat) : Word := BitVec.ofNat 32 (w % 2 ^ nbits)

/-- The command the decoder reads from an opcode-table word (none where it rejects, or where the bits do not fit the
one 32-bit word a command is, 30_encoding.md R115). -/
def decodeTableWord (nbits w : Nat) : Option Instr :=
  if w % 2 ^ nbits < 2 ^ 32 then (decode (tableWord nbits w)).toOption else none

end Sys2Proof
end

