-- ==== Sys2Proof/Machine/Dictionary.lean ====
section
/-! DEFINITION. Words, tokens and the frequency table as functions of byte strings (spec 44_frequency.md R261 to R267,
R272). -/

namespace Sys2Proof.Machine

/-- Split a byte string at every byte sep accepts; the pieces in order, empty ones included. -/
def splitPieces (sep : Byte → Bool) : Bytes → List Bytes
  | [] => [[]]
  | b :: t =>
    match splitPieces sep t with
    | [] => [[]]
    | p :: ps => if sep b then [] :: p :: ps else (b :: p) :: ps

/-- The non-empty maximal runs of bytes sep rejects: the pieces with every empty one removed. -/
def runs (sep : Byte → Bool) (s : Bytes) : List Bytes := (splitPieces sep s).filter (fun p => !p.isEmpty)

/-- The newline byte 0x0A (00_scope.md R15), the only byte that separates dictionary words (44_frequency.md R261). -/
def isNewline (b : Byte) : Bool := b == 0x0A#8

/-- Words(D): the non-empty pieces between newlines, in order, duplicates kept (44_frequency.md R261). -/
def wordsOf (d : Bytes) : List Bytes := runs isNewline d

/-- IsSpace: the bytes of WS_SET (44_frequency.md R265, 00_scope.md R8). -/
def isSpace (b : Byte) : Bool := [0x09#8, 0x0A#8, 0x0B#8, 0x0C#8, 0x0D#8, 0x20#8].contains b

/-- Tokens(t): the maximal runs of bytes that are not whitespace, in order (44_frequency.md R266). -/
def tokensOf (t : Bytes) : List Bytes := runs isSpace t

/-- FreqTable(D)[b]: the occurrences of b summed over the words of D (44_frequency.md R262). -/
def freqCount (d : Bytes) (b : Byte) : Nat := ((wordsOf d).map (fun w => w.count b)).sum

/-- FreqTable(D), 256 counters of 32 bits (44_frequency.md R262, 10_state.md R52; no count can overflow,
41_byte_symbol.md R187, log 16). -/
def freqTable (d : Bytes) : Vector (BitVec 32) 256 :=
  Vector.ofFn (fun b => BitVec.ofNat 32 (freqCount d (BitVec.ofFin b)))

/-- FREQ[b] read as a natural. -/
def freqAt (freq : Vector (BitVec 32) 256) (b : Byte) : Nat := (freq[b.toNat]'b.isLt).toNat

/-- InDict(x): x equals some word, byte for byte and of the same length (44_frequency.md R263). -/
def inDict (d : Bytes) (x : Bytes) : Bool := (wordsOf d).contains x

/-- WordHitCount(t): how many tokens are dictionary words (44_frequency.md R267). -/
def wordHitCount (d : Bytes) (t : Bytes) : Nat := (tokensOf t).countP (inDict d)

/-- LetterScore(t): the sum of FREQ[t[i]] over every byte of t (44_frequency.md R272). -/
def letterScore (freq : Vector (BitVec 32) 256) (t : Bytes) : Nat := (t.map (freqAt freq)).sum

end Sys2Proof.Machine
end

