-- ==== Sys2Proof/Machine/State.lean ====
section
/-! DEFINITION. The state of the machine (spec 10_state.md R30, R62), the reasons it can stop, and the state at
power-on (70_reset_and_hazards.md R381). -/

namespace Sys2Proof.Machine

/-- The outcomes of the model that 60_exceptions.md R355 to R357 name; recorded in State.modelFault and never cleared
(10_state.md R62). -/
inductive ModelFault where
  /-- The host made an access 20_memory.md R82 does not support (R355). Safe: the access has no other effect. -/
  | hostBusError
  /-- The host accessed DMEM while BUSY = 1 (20_memory.md R97, R356). Safe. -/
  | hostRace
  /-- The host or a command read a DMEM byte with no value (20_memory.md R90, 40_command_cycle.md R147, R357). Safe. -/
  | uninitRead
  deriving DecidableEq, Repr

/-- Why a step stops with a fault. -/
inductive Fault where
  /-- Raised when a model fault is recorded and the engine is asked for the step it then does not have
  (40_command_cycle.md R142), or when the host's program is over in such a state, which is never a correct end of a
  run (60_exceptions.md section 3). Safe: nothing is claimed of what the hardware does. -/
  | model (f : ModelFault)
  /-- Raised by a command's meaning when no command is in flight: the engine has a step only while BUSY = 1
  (40_command_cycle.md R142). `step` never asks for it. Safe. -/
  | noCommand
  deriving DecidableEq, Repr

/-- Why a step is refused. -/
inductive Refusal where
  /-- Raised by an arm of exec that has no meaning yet. Safe. No arm uses it. -/
  | notModelled (mnemonic : String)
  /-- Raised by the host's BIT.NZ when its label is not in the host program: such a text is no program of
  30_encoding.md R116 (log 12). Safe. -/
  | undefinedLabel
  deriving DecidableEq, Repr

/-- One entry of the schedule: which agent moves (20_memory.md R91; log 7). -/
inductive Turn where
  /-- The host runs its next statement. -/
  | host
  /-- The engine completes the command in flight, if there is one. -/
  | engine
  /-- The platform asserts the reset input (10_state.md R60). -/
  | reset
  /-- The platform powers the block up again (70_reset_and_hazards.md R380). -/
  | powerOn
  deriving DecidableEq, Repr

/-- The host agent (00_scope.md R7): its program, where it stands in it, and what its reads have returned, newest
first. The model's own fields (10_state.md R30: not state of the engine; log 7). -/
structure HostAgent where
  program : List HostStmt := []
  pos : Nat := 0
  reads : List ReadRecord := []
  deriving DecidableEq, Repr

/-- The latched command record L (10_state.md R55). -/
structure Latch where
  cmd : Word
  aAddr : Word
  aLen : Word
  bAddr : Word
  bLen : Word
  dAddr : Word
  deriving DecidableEq, Repr

/-- DMEM's bytes that hold a value, as (address, byte) pairs with addresses strictly rising. An address with no pair
holds no value (20_memory.md R90). -/
abbrev Memory := List Host.Cell

/-- The state: every piece 10_state.md R30 and R62 name, then the model's own environment fields. -/
structure State where
  /-- The instance's parameters (00_scope.md R8); no step writes them (log 3). -/
  cfg : Params
  /-- A_ADDR (10_state.md R43). -/
  aAddr : Word
  /-- A_LEN (10_state.md R44). -/
  aLen : Word
  /-- B_ADDR (10_state.md R45). -/
  bAddr : Word
  /-- B_LEN (10_state.md R46). -/
  bLen : Word
  /-- D_ADDR (10_state.md R47). -/
  dAddr : Word
  /-- STATUS.DONE (10_state.md R37). -/
  done : Bool
  /-- STATUS.ERR (10_state.md R38). -/
  err : Bool
  /-- STATUS.DICT_VALID (10_state.md R39). -/
  dictValid : Bool
  /-- STATUS.FOUND (10_state.md R40). -/
  found : Bool
  /-- STATUS.OVERRUN (10_state.md R41). -/
  overrun : Bool
  /-- STATUS.ERRCODE (10_state.md R42). -/
  errcode : BitVec 4
  /-- OUT_LEN (10_state.md R48). -/
  outLen : Word
  /-- RESULT (10_state.md R49). -/
  result : Word
  /-- KEY bits 7:0 (10_state.md R50). -/
  key : Byte
  /-- DICT[0 .. DICT_LEN) (10_state.md R56); its length is DICT_LEN (R51; log 2). -/
  dict : Bytes
  /-- FREQ[0..255] (10_state.md R52). -/
  freq : Vector (BitVec 32) 256
  /-- L, present iff STATUS.BUSY = 1 (10_state.md R36, R55; log 1). -/
  latched : Option Latch
  /-- DMEM (10_state.md R59). -/
  dmem : Memory
  /-- The recorded model fault (10_state.md R62). -/
  modelFault : Option ModelFault
  /-- The host agent (the model's own; log 7). -/
  host : HostAgent
  /-- The schedule, next turn first (the model's own; log 7). -/
  turns : List Turn
  /-- How many free draws have been taken (the model's own; log 5). -/
  draws : Nat
  deriving DecidableEq, Repr

/-- Power-on (70_reset_and_hazards.md R381): every register at its reset value, DICT and DMEM without values, no
latched command; the default parameters of 00_scope.md R8; an environment in which nothing is pending. -/
def State.reset : State where
  cfg := { dmemSize := 65536, dictCap := 16384 }
  aAddr := 0#32
  aLen := 0#32
  bAddr := 0#32
  bLen := 0#32
  dAddr := 0#32
  done := false
  err := false
  dictValid := false
  found := false
  overrun := false
  errcode := 0#4
  outLen := 0#32
  result := 0#32
  key := 0#8
  dict := []
  freq := Vector.replicate 256 0#32
  latched := none
  dmem := []
  modelFault := none
  host := { program := [], pos := 0, reads := [] }
  turns := []
  draws := 0

end Sys2Proof.Machine
end

