-- ==== Sys2Proof/Machine/Flags.lean ====
section
/-! DEFINITION. The flags of STATUS and the error codes (spec 10_state.md R33, R35, R36, 60_exceptions.md R340). -/

namespace Sys2Proof.Machine

/-- The error codes a command can raise (60_exceptions.md R340). -/
inductive ErrCode where
  | invalidFormat
  | lengthMismatch
  | illegalCommand
  | addressRange
  | capacity
  | emptyKey
  | noDictionary
  | dictLoaded
  deriving DecidableEq, Repr

/-- STATUS.ERRCODE's value of each code (60_exceptions.md R340); 0 is NONE and 9 to 15 are never produced. -/
def ErrCode.code : ErrCode → BitVec 4
  | .invalidFormat => 1#4
  | .lengthMismatch => 2#4
  | .illegalCommand => 3#4
  | .addressRange => 4#4
  | .capacity => 5#4
  | .emptyKey => 6#4
  | .noDictionary => 7#4
  | .dictLoaded => 8#4

/-- ID at all times (10_state.md R33): "CX", version 1. -/
def idValue : Word := 0x43580001#32

/-- The STATUS word of 10_state.md R35: BUSY 0, DONE 1, ERR 2, DICT_VALID 3, FOUND 4, OVERRUN 5, reserved 7:6 as 0,
ERRCODE 11:8, reserved 31:12 as 0. -/
def statusWord (busy done err dictValid found overrun : Bool) (errcode : BitVec 4) : Word :=
  0#20 ++ errcode ++ 0#2 ++ BitVec.ofBool overrun ++ BitVec.ofBool found ++ BitVec.ofBool dictValid
    ++ BitVec.ofBool err ++ BitVec.ofBool done ++ BitVec.ofBool busy

/-- STATUS.BUSY: a command is in flight exactly while the latched record is present (10_state.md R36, R55, R62). -/
def State.busy (s : State) : Bool := s.latched.isSome

/-- The flags a command issue clears: DONE, ERR and ERRCODE; OVERRUN, DICT_VALID and FOUND stay
(40_command_cycle.md R140). -/
def State.clearIssueFlags (s : State) : State := { s with done := false, err := false, errcode := 0#4 }

/-- ERR and ERRCODE of a successful completion (40_command_cycle.md R144). -/
def State.markOk (s : State) : State := { s with err := false, errcode := 0#4 }

/-- ERR and ERRCODE of a failed completion (40_command_cycle.md R145, 10_state.md R38, R42). -/
def State.markErr (s : State) (c : ErrCode) : State := { s with err := true, errcode := c.code }

/-- The end of every completion: BUSY 0, DONE 1, the latched record gone (40_command_cycle.md R142). -/
def State.finish (s : State) : State := { s with latched := none, done := true }

end Sys2Proof.Machine
end

