-- ==== Sys2Proof/Machine/Ops.lean ====
section
/-! DEFINITION. The shared operations: DMEM, command issue, the engine's one completion step with its success and error
forms, and the resets (spec 20_memory.md, 40_command_cycle.md R140 to R145, 46_control.md R321,
70_reset_and_hazards.md R383, R384). -/

namespace Sys2Proof.Machine

/-! ## DMEM -/

/-- DMEM[a]: the byte at a, or none where it holds no value (20_memory.md R90). -/
def Memory.read : Memory → Nat → Option Byte
  | [], _ => none
  | (k, v) :: m, a => if k = a then some v else Memory.read m a

/-- DMEM[a] <- b, keeping the addresses rising. -/
def Memory.write : Memory → Nat → Byte → Memory
  | [], a, b => [(a, b)]
  | (k, v) :: m, a, b =>
    if a < k then (a, b) :: (k, v) :: m
    else if a = k then (a, b) :: m
    else (k, v) :: Memory.write m a b

/-- MemWrite(a, len(bs), bs): index 0 at a (00_scope.md R14, 20_memory.md R84). -/
def Memory.writeBytes (m : Memory) (a : Nat) : Bytes → Memory
  | [] => m
  | b :: bs => Memory.writeBytes (m.write a b) (a + 1) bs

/-- MemRead(a, n): DMEM[a], ..., DMEM[a+n-1]; none if one of them holds no value (00_scope.md R14,
40_command_cycle.md R147). -/
def Memory.readBytes (m : Memory) (a : Nat) : Nat → Option Bytes
  | 0 => some []
  | n + 1 =>
    match m.read a, Memory.readBytes m (a + 1) n with
    | some b, some bs => some (b :: bs)
    | _, _ => none

/-- Every byte of [lo, hi) loses its value (70_reset_and_hazards.md R384). -/
def Memory.forget (m : Memory) (lo hi : Nat) : Memory :=
  m.filter (fun c => !(decide (lo ≤ c.1) && decide (c.1 < hi)))

/-- The canonical form: addresses strictly rising. An unlisted address holds no value, and a listed one does, so no
entry equals what an unlisted address reads as. -/
def Memory.wf : Memory → Bool
  | [] => true
  | [_] => true
  | c :: d :: m => decide (c.1 < d.1) && Memory.wf (d :: m)

/-- Every listed address is inside DMEM (20_memory.md R80). -/
def Memory.below (m : Memory) (n : Nat) : Bool := m.all (fun c => decide (c.1 < n))

/-- The four bytes of a 32-bit value, least significant first (20_memory.md R83). -/
def leBytes (v : Word) : Bytes := [v.extractLsb' 0 8, v.extractLsb' 8 8, v.extractLsb' 16 8, v.extractLsb' 24 8]

/-- The 32-bit value of four bytes, least significant first (20_memory.md R83). -/
def leWord (b0 b1 b2 b3 : Byte) : Word := b3 ++ b2 ++ b1 ++ b0

/-! ## Issue -/

/-- DICT_LEN (10_state.md R51): the number of bytes DICT holds. -/
def State.dictLen (s : State) : Word := BitVec.ofNat 32 s.dict.length

/-- The command record a command issue latches (40_command_cycle.md R140). -/
def State.latchOf (s : State) (v : Word) : Latch :=
  { cmd := v, aAddr := s.aAddr, aLen := s.aLen, bAddr := s.bAddr, bLen := s.bLen, dAddr := s.dAddr }

/-- Issue(v): latch v and the operand registers, BUSY 1, DONE, ERR and ERRCODE 0; every word is issued
(40_command_cycle.md R140). Its callers give it a state with BUSY = 0. -/
def State.issue (s : State) (v : Word) : State := { s.clearIssueFlags with latched := some (s.latchOf v) }

/-! ## Completion -/

/-- How a command's computation ends without an `Ok` (40_command_cycle.md R143). -/
inductive Stop where
  /-- `raise Error(c)`. -/
  | err (c : ErrCode)
  /-- `ModelFault f`. -/
  | fault (f : ModelFault)
  deriving DecidableEq, Repr

/-- The fields of an `Ok r` (40_command_cycle.md R143). An omitted field is absent, 0 or false. -/
structure Report where
  /-- The byte string written at L.D_ADDR, or absent. -/
  out : Option Bytes := none
  /-- RESULT, computed exactly (41_byte_symbol.md R187). -/
  result : Nat := 0
  /-- KEY bits 7:0. -/
  key : Byte := 0#8
  /-- FOUND. -/
  found : Bool := false
  /-- A new dictionary (DICTLOAD only). -/
  dict : Option Bytes := none
  /-- True only for RESET. -/
  reset : Bool := false
  deriving DecidableEq, Repr

/-- A computation of a command: `Exec`'s three outcomes (40_command_cycle.md R143). -/
abbrev Cmd (α : Type) := Except Stop α

/-- Recording a model fault: kept if one is recorded already, never cleared (10_state.md R62; log 10). -/
def State.recordFault (s : State) (f : ModelFault) : State :=
  { s with modelFault := match s.modelFault with
      | some g => some g
      | none => some f }

/-- The result registers and FOUND, written at every completion (10_state.md R40, R48 to R50; RESULT's exact value
fits 32 bits by 41_byte_symbol.md R187, log 16). -/
def State.setResults (s : State) (outLen result : Nat) (key : Byte) (found : Bool) : State :=
  { s with outLen := BitVec.ofNat 32 outLen, result := BitVec.ofNat 32 result, key := key, found := found }

/-- MemWrite(L.D_ADDR, len(out), out) when out is present (40_command_cycle.md R144). -/
def State.writeOut (s : State) (dAddr : Word) (out : Option Bytes) : State :=
  match out with
  | some bs => { s with dmem := s.dmem.writeBytes dAddr.toNat bs }
  | none => s

/-- DICT, DICT_LEN, FREQ and DICT_VALID of a successful DICTLOAD (40_command_cycle.md R144, 44_frequency.md R264). -/
def State.loadDict (s : State) (dict : Option Bytes) : State :=
  match dict with
  | some d => { s with dict := d, freq := freqTable d, dictValid := true }
  | none => s

/-- Every register of 10_state.md R33 to R52 at its reset value, DICT without values, no latched record; DMEM, the
recorded model fault and the environment stay (46_control.md R321, 70_reset_and_hazards.md R383). -/
def State.resetRegs (s : State) : State :=
  { s with
    aAddr := 0#32, aLen := 0#32, bAddr := 0#32, bLen := 0#32, dAddr := 0#32
    done := false, err := false, dictValid := false, found := false, overrun := false, errcode := 0#4
    outLen := 0#32, result := 0#32, key := 0#8
    dict := [], freq := Vector.replicate 256 0#32, latched := none }

/-- ApplyOk(s, r) (40_command_cycle.md R144). -/
def State.applyOk (s : State) (L : Latch) (r : Report) : State :=
  if r.reset then s.resetRegs
  else (((s.writeOut L.dAddr r.out).setResults (r.out.getD []).length r.result r.key r.found).loadDict r.dict).markOk

/-- ApplyErr(s, c): a failed command has no effect but its report (40_command_cycle.md R145). This is the engine's
whole exception entry: no control transfer, no saved state (60_exceptions.md R351). The way back is the next issue,
which clears ERR and ERRCODE (R352, State.issue). -/
def State.applyErr (s : State) (c : ErrCode) : State := (s.setResults 0 0 0#8 false).markErr c

/-- Complete(s): the engine's one atomic step on the latched command (40_command_cycle.md R142). The engine has the
step iff BUSY = 1 and no model fault is recorded (log 8, log 14). -/
def State.complete (s : State) (body : State → Latch → Cmd Report) : Host.Outcome State Fault Refusal :=
  match s.modelFault with
  | some f => .fault (.model f)
  | none =>
    match s.latched with
    | none => .fault .noCommand
    | some L =>
      match body s L with
      | .ok r => .next (s.applyOk L r).finish
      | .error (.err c) => .next (s.applyErr c).finish
      | .error (.fault f) => .next (s.recordFault f)

/-! ## Resets -/

/-- Bound(L): the largest output the command could produce (70_reset_and_hazards.md R384), for an assigned command. -/
def outputBound (L : Latch) : Instr → Nat
  | .hexenc => 2 * L.aLen.toNat
  | .hexdec => L.aLen.toNat / 2
  | .xor => L.aLen.toNat
  | .repxor => L.aLen.toNat
  | .breakscore => L.aLen.toNat
  | .b64enc => 4 * ((L.aLen.toNat + 2) / 3)
  | .b64dec => 3 * (L.aLen.toNat / 4)
  | .breakhits => 1280
  | .nop => 0
  | .hamming => 0
  | .dictload => 0
  | .wordhits => 0
  | .letterscore => 0
  | .reset => 0

/-- Bound(L) for any latched word; 0 for an illegal one (70_reset_and_hazards.md R384). -/
def latchBound (L : Latch) : Nat :=
  match decode L.cmd with
  | .ok i => outputBound L i
  | .error _ => 0

/-- DMEM after a hard reset: the bytes the abandoned command might have written lose their values
(70_reset_and_hazards.md R384); unchanged when no command was in flight (R383). -/
def State.dmemAfterReset (s : State) : Memory :=
  match s.latched with
  | none => s.dmem
  | some L => s.dmem.forget L.dAddr.toNat (min s.cfg.dmemSize (L.dAddr.toNat + latchBound L))

/-- A hard reset (70_reset_and_hazards.md R383, R384). -/
def State.hardReset (s : State) : State := { s.resetRegs with dmem := s.dmemAfterReset }

/-- Power-on of an instance already in a run: as a reset, and every DMEM byte without value (70_reset_and_hazards.md
R380, R381). The first power-on is State.reset. -/
def State.powerOn (s : State) : State := { s.resetRegs with dmem := [] }

end Sys2Proof.Machine
end

