-- ==== Sys2Proof/Machine/Operands.lean ====
section
/-! DEFINITION. The operand forms and the common checks (spec 30_encoding.md R111, 40_command_cycle.md R146, R147). -/

namespace Sys2Proof.Machine

/-- InRange(addr, n) := addr + n <= DMEM_SIZE on naturals, also for n = 0 (20_memory.md R85). -/
def inRange (cfg : Params) (addr n : Nat) : Bool := decide (addr + n ≤ cfg.dmemSize)

/-- A source range: checked, then read in full; UninitRead if a byte of it holds no value (40_command_cycle.md R146,
R147). -/
def readSource (s : State) (addr len : Word) : Cmd Bytes :=
  if inRange s.cfg addr.toNat len.toNat then
    match s.dmem.readBytes addr.toNat len.toNat with
    | some bs => .ok bs
    | none => .error (.fault .uninitRead)
  else .error (.err .addressRange)

/-- SrcA(L) (40_command_cycle.md R146). -/
def srcA (s : State) (L : Latch) : Cmd Bytes := readSource s L.aAddr L.aLen

/-- SrcB(L) (40_command_cycle.md R146). -/
def srcB (s : State) (L : Latch) : Cmd Bytes := readSource s L.bAddr L.bLen

/-- CheckDst(L, n), once the output length is known (40_command_cycle.md R146). -/
def checkDst (s : State) (L : Latch) (n : Nat) : Cmd Unit :=
  if inRange s.cfg L.dAddr.toNat n then .ok () else .error (.err .addressRange)

/-- RequireDict() (40_command_cycle.md R146). -/
def requireDict (s : State) : Cmd Unit := if s.dictValid then .ok () else .error (.err .noDictionary)

/-- `if bad then raise Error(c)`. -/
def raiseIf (bad : Bool) (c : ErrCode) : Cmd Unit := if bad then .error (.err c) else .ok ()

/-- A value, or `raise Error(c)` where there is none. -/
def orRaise {α : Type} (x : Option α) (c : ErrCode) : Cmd α :=
  match x with
  | some v => .ok v
  | none => .error (.err c)

end Sys2Proof.Machine
end

