-- ==== Sys2Proof/Machine/Base64.lean ====
section
/-! DEFINITION. The Base64Sequence commands B64ENC and B64DEC (spec 43_base64.md). Six-bit values and the padding
sentinel 64 are naturals, as the rules write them. -/

namespace Sys2Proof.Machine

/-- The padding sentinel (43_base64.md R231). -/
def padValue : Nat := 64

/-- '=' (43_base64.md R231, 00_scope.md R15). -/
def padByte : Byte := 0x3D#8

/-- B64Char(v) for v <= 63 (43_base64.md R230). -/
def b64Char (v : Nat) : Byte :=
  if v ≤ 25 then BitVec.ofNat 8 (0x41 + v)
  else if v ≤ 51 then BitVec.ofNat 8 (0x61 + (v - 26))
  else if v ≤ 61 then BitVec.ofNat 8 (0x30 + (v - 52))
  else if v = 62 then 0x2B#8
  else 0x2F#8

/-- Render(v): B64Char, and '=' for the sentinel (43_base64.md R231). -/
def b64Render (v : Nat) : Byte := if v = padValue then padByte else b64Char v

/-- B64Index(c): the value of an alphabet byte, none for any other byte (43_base64.md R230). -/
def b64Index (c : Byte) : Option Nat :=
  if 0x41 ≤ c.toNat ∧ c.toNat ≤ 0x5A then some (c.toNat - 0x41)
  else if 0x61 ≤ c.toNat ∧ c.toNat ≤ 0x7A then some (c.toNat - 0x61 + 26)
  else if 0x30 ≤ c.toNat ∧ c.toNat ≤ 0x39 then some (c.toNat - 0x30 + 52)
  else if c.toNat = 0x2B then some 62
  else if c.toNat = 0x2F then some 63
  else none

/-- The 24-bit value of three bytes, most significant first (43_base64.md R232). -/
def packBytes (b0 b1 b2 : Byte) : Nat := b0.toNat * 2 ^ 16 + b1.toNat * 2 ^ 8 + b2.toNat

/-- w[6j+5:6j], a six-bit value of a 24-bit value (43_base64.md R232). -/
def sextet (w j : Nat) : Nat := w / 2 ^ (6 * j) % 64

/-- The six-bit sequence of a byte string: four values per group of three bytes, the final partial group padded with
one or two sentinels (43_base64.md R233; the source's inverted sentence is settled by 90_conflicts.md C8). -/
def b64Values : Bytes → List Nat
  | [] => []
  | [b0] => [sextet (packBytes b0 0 0) 3, sextet (packBytes b0 0 0) 2, padValue, padValue]
  | [b0, b1] => [sextet (packBytes b0 b1 0) 3, sextet (packBytes b0 b1 0) 2, sextet (packBytes b0 b1 0) 1, padValue]
  | b0 :: b1 :: b2 :: t =>
    sextet (packBytes b0 b1 b2) 3 :: sextet (packBytes b0 b1 b2) 2 :: sextet (packBytes b0 b1 b2) 1
      :: sextet (packBytes b0 b1 b2) 0 :: b64Values t

/-- B64ENC's text (43_base64.md R233). -/
def b64Text (a : Bytes) : Bytes := (b64Values a).map b64Render

/-- The length of the trailing run of '=' (43_base64.md R236). -/
def trailingPads (s : Bytes) : Nat := (s.reverse.takeWhile (· == padByte)).length

/-- B64Index of every byte, none if one is not in the alphabet. -/
def b64Indices : Bytes → Option (List Nat)
  | [] => some []
  | c :: t =>
    match b64Index c, b64Indices t with
    | some v, some vs => some (v :: vs)
    | _, _ => none

/-- Parse(s): strip the trailing '=' run, at most 2; every remaining byte in the alphabet; (m + p) mod 4 = 0; none
where it raises INVALID_FORMAT (43_base64.md R236). -/
def b64Parse (s : Bytes) : Option (List Nat × Nat) :=
  if 2 < trailingPads s then none
  else
    match b64Indices (s.take (s.length - trailingPads s)) with
    | none => none
    | some vals => if (vals.length + trailingPads s) % 4 ≠ 0 then none else some (vals, trailingPads s)

/-- A value's bits, 0 for the sentinel (43_base64.md R237). -/
def valueBits (v : Nat) : Nat := if v = padValue then 0 else v

/-- The bytes of one group of four values: inverse bit-packing, less one byte per sentinel (43_base64.md R232,
R237). -/
def groupBytes (s0 s1 s2 s3 : Nat) : Bytes :=
  let w := valueBits s0 * 2 ^ 18 + valueBits s1 * 2 ^ 12 + valueBits s2 * 2 ^ 6 + valueBits s3
  [BitVec.ofNat 8 (w / 2 ^ 16), BitVec.ofNat 8 (w / 2 ^ 8), BitVec.ofNat 8 w].take
    (3 - [s0, s1, s2, s3].count padValue)

/-- The bytes of a sequence of groups of four values (43_base64.md R237). -/
def decodeGroups : List Nat → Bytes
  | s0 :: s1 :: s2 :: s3 :: t => groupBytes s0 s1 s2 s3 ++ decodeGroups t
  | _ => []

/-- Decode(vals, p) (43_base64.md R237). -/
def b64Decode (vals : List Nat) (p : Nat) : Bytes := decodeGroups (vals ++ List.replicate p padValue)

/-- B64DEC's bytes, none where Parse raises INVALID_FORMAT (43_base64.md R238). -/
def b64Bytes (s : Bytes) : Option Bytes := (b64Parse s).map (fun vp => b64Decode vp.1 vp.2)

/-- B64ENC (43_base64.md R233). -/
def b64encBody (s : State) (L : Latch) : Cmd Report := do
  let a ← srcA s L
  checkDst s L (4 * ((a.length + 2) / 3))
  return { out := some (b64Text a) }

/-- B64DEC (43_base64.md R238). -/
def b64decBody (s : State) (L : Latch) : Cmd Report := do
  let t ← srcA s L
  let out ← orRaise (b64Bytes t) .invalidFormat
  checkDst s L out.length
  return { out := some out }

/-- B64ENC's completion (40_command_cycle.md R142). -/
def execB64enc (s : State) : Host.Outcome State Fault Refusal := s.complete b64encBody

/-- B64DEC's completion (40_command_cycle.md R142). -/
def execB64dec (s : State) : Host.Outcome State Fault Refusal := s.complete b64decBody

end Sys2Proof.Machine
end

