-- ==== Sys2Proof/Machine/Control.lean ====
section
/-! DEFINITION. The control commands NOP and RESET, and the execution of an illegal word (spec 46_control.md,
30_encoding.md R114). -/

namespace Sys2Proof.Machine

/-- NOP: `return Ok` with nothing (46_control.md R320). -/
def nopBody (_ : State) (_ : Latch) : Cmd Report := .ok {}

/-- RESET: `return Ok` with reset (46_control.md R321). -/
def resetBody (_ : State) (_ : Latch) : Cmd Report := .ok { reset := true }

/-- An illegal word: ILLEGAL_COMMAND before any other check (30_encoding.md R114, 60_exceptions.md R343). -/
def illegalBody (_ : State) (_ : Latch) : Cmd Report := .error (.err .illegalCommand)

/-- NOP's completion (40_command_cycle.md R142). -/
def execNop (s : State) : Host.Outcome State Fault Refusal := s.complete nopBody

/-- RESET's completion (40_command_cycle.md R142, 46_control.md R321). -/
def execReset (s : State) : Host.Outcome State Fault Refusal := s.complete resetBody

/-- An illegal word's completion (40_command_cycle.md R149). -/
def execIllegal (s : State) : Host.Outcome State Fault Refusal := s.complete illegalBody

end Sys2Proof.Machine
end

