-- ==== Sys2Proof/Machine/Frequency.lean ====
section
/-! DEFINITION. The FrequencyDictionary commands DICTLOAD, WORDHITS and LETTERSCORE (spec 44_frequency.md). -/

namespace Sys2Proof.Machine

/-- DICTLOAD (44_frequency.md R264): DICT_LOADED, then the range, then CAPACITY. -/
def dictloadBody (s : State) (L : Latch) : Cmd Report := do
  raiseIf s.dictValid .dictLoaded
  let d ← srcA s L
  raiseIf (decide (s.cfg.dictCap < d.length)) .capacity
  return { dict := some d, result := (wordsOf d).length }

/-- WORDHITS (44_frequency.md R268). -/
def wordhitsBody (s : State) (L : Latch) : Cmd Report := do
  requireDict s
  let t ← srcA s L
  return { result := wordHitCount s.dict t }

/-- LETTERSCORE (44_frequency.md R273). -/
def letterscoreBody (s : State) (L : Latch) : Cmd Report := do
  requireDict s
  let t ← srcA s L
  return { result := letterScore s.freq t }

/-- DICTLOAD's completion (40_command_cycle.md R142). -/
def execDictload (s : State) : Host.Outcome State Fault Refusal := s.complete dictloadBody

/-- WORDHITS's completion (40_command_cycle.md R142). -/
def execWordhits (s : State) : Host.Outcome State Fault Refusal := s.complete wordhitsBody

/-- LETTERSCORE's completion (40_command_cycle.md R142). -/
def execLetterscore (s : State) : Host.Outcome State Fault Refusal := s.complete letterscoreBody

end Sys2Proof.Machine
end

