-- ==== Sys2Proof/Machine/ByteSymbol.lean ====
section
/-! DEFINITION. The ByteSymbol primitives (spec 41_byte_symbol.md R170 to R180). -/

namespace Sys2Proof.Machine

/-- HexVal(c): the nibble of a hex digit of either case, none for any other byte (41_byte_symbol.md R171). -/
def hexVal (c : Byte) : Option (BitVec 4) :=
  if 0x30 ≤ c.toNat ∧ c.toNat ≤ 0x39 then some (BitVec.ofNat 4 (c.toNat - 0x30))
  else if 0x61 ≤ c.toNat ∧ c.toNat ≤ 0x66 then some (BitVec.ofNat 4 (c.toNat - 0x61 + 10))
  else if 0x41 ≤ c.toNat ∧ c.toNat ≤ 0x46 then some (BitVec.ofNat 4 (c.toNat - 0x41 + 10))
  else none

/-- HexDigit(n): the lower-case digit of a nibble (41_byte_symbol.md R172). -/
def hexDigit (n : BitVec 4) : Byte :=
  if n.toNat ≤ 9 then BitVec.ofNat 8 (0x30 + n.toNat) else BitVec.ofNat 8 (0x61 + n.toNat - 10)

/-- ToHexText(b): high nibble first (41_byte_symbol.md R173). -/
def toHexText (b : Byte) : Bytes := [hexDigit (b.extractLsb' 4 4), hexDigit (b.extractLsb' 0 4)]

/-- FromHexDigits(h, l): 16 * HexVal(h) + HexVal(l), none where it raises INVALID_FORMAT (41_byte_symbol.md R174). -/
def fromHexDigits (h l : Byte) : Option Byte :=
  match hexVal h, hexVal l with
  | some x, some y => some (x ++ y)
  | _, _ => none

/-- IsPrintable(b) := b > 31 (41_byte_symbol.md R175). -/
def isPrintable (b : Byte) : Bool := decide (31 < b.toNat)

/-- IsExtended(b) := b > 127 (41_byte_symbol.md R176). -/
def isExtended (b : Byte) : Bool := decide (127 < b.toNat)

/-- Plausible(b) := IsPrintable(b) and not IsExtended(b) (41_byte_symbol.md R177). -/
def plausible (b : Byte) : Bool := isPrintable b && !isExtended b

/-- Xor8(a, b) (41_byte_symbol.md R178). -/
def xor8 (a b : Byte) : Byte := a ^^^ b

/-- popcount8(v): the number of 1 bits (00_scope.md R14). -/
def popcount8 (v : Byte) : Nat := (List.range 8).countP (fun i => v.getLsbD i)

/-- BitDifference(a, b) (41_byte_symbol.md R179). -/
def bitDifference (a b : Byte) : Nat := popcount8 (xor8 a b)

end Sys2Proof.Machine
end

