-- ==== Sys2Proof/Machine/HexSequence.lean ====
section
/-! DEFINITION. The HexSequence commands HEXENC, HEXDEC, XOR, REPXOR and HAMMING (spec 42_hex_sequence.md). -/

namespace Sys2Proof.Machine

/-- HEXENC's text: the two digits of each byte, in order (42_hex_sequence.md R191). -/
def hexText (a : Bytes) : Bytes := a.flatMap toHexText

/-- HEXDEC's bytes: the digit pairs in order; none for an odd length or an illegal digit (42_hex_sequence.md R195). -/
def hexBytes : Bytes → Option Bytes
  | [] => some []
  | [_] => none
  | h :: l :: t =>
    match fromHexDigits h l, hexBytes t with
    | some b, some bs => some (b :: bs)
    | _, _ => none

/-- XOR's output on operands of equal length (42_hex_sequence.md R200). -/
def xorBytes (a b : Bytes) : Bytes := List.zipWith xor8 a b

/-- Key byte i mod m of a key of length m >= 1 (42_hex_sequence.md R205). -/
def keyByte (k : Bytes) (i : Nat) : Byte := k.getD (i % k.length) 0#8

/-- REPXOR's output from index i on (42_hex_sequence.md R206). -/
def repXorFrom (k : Bytes) (i : Nat) : Bytes → Bytes
  | [] => []
  | x :: xs => xor8 x (keyByte k i) :: repXorFrom k (i + 1) xs

/-- REPXOR's output: byte i XOR key byte i mod m (42_hex_sequence.md R206). -/
def repXor (a k : Bytes) : Bytes := repXorFrom k 0 a

/-- HAMMING's result on operands of equal length (42_hex_sequence.md R210). -/
def hammingDistance (a b : Bytes) : Nat := (List.zipWith bitDifference a b).sum

/-- HEXENC (42_hex_sequence.md R191). -/
def hexencBody (s : State) (L : Latch) : Cmd Report := do
  let a ← srcA s L
  checkDst s L (2 * a.length)
  return { out := some (hexText a) }

/-- HEXDEC (42_hex_sequence.md R195). -/
def hexdecBody (s : State) (L : Latch) : Cmd Report := do
  let t ← srcA s L
  raiseIf (decide (t.length % 2 ≠ 0)) .invalidFormat
  let out ← orRaise (hexBytes t) .invalidFormat
  checkDst s L (t.length / 2)
  return { out := some out }

/-- XOR (42_hex_sequence.md R200). -/
def xorBody (s : State) (L : Latch) : Cmd Report := do
  let a ← srcA s L
  let b ← srcB s L
  raiseIf (decide (a.length ≠ b.length)) .lengthMismatch
  checkDst s L a.length
  return { out := some (xorBytes a b) }

/-- REPXOR (42_hex_sequence.md R206). -/
def repxorBody (s : State) (L : Latch) : Cmd Report := do
  let a ← srcA s L
  let k ← srcB s L
  raiseIf (decide (k.length = 0)) .emptyKey
  checkDst s L a.length
  return { out := some (repXor a k) }

/-- HAMMING (42_hex_sequence.md R210). -/
def hammingBody (s : State) (L : Latch) : Cmd Report := do
  let a ← srcA s L
  let b ← srcB s L
  raiseIf (decide (a.length ≠ b.length)) .lengthMismatch
  return { result := hammingDistance a b }

/-- HEXENC's completion (40_command_cycle.md R142). -/
def execHexenc (s : State) : Host.Outcome State Fault Refusal := s.complete hexencBody

/-- HEXDEC's completion (40_command_cycle.md R142). -/
def execHexdec (s : State) : Host.Outcome State Fault Refusal := s.complete hexdecBody

/-- XOR's completion (40_command_cycle.md R142). -/
def execXor (s : State) : Host.Outcome State Fault Refusal := s.complete xorBody

/-- REPXOR's completion (40_command_cycle.md R142). -/
def execRepxor (s : State) : Host.Outcome State Fault Refusal := s.complete repxorBody

/-- HAMMING's completion (40_command_cycle.md R142). -/
def execHamming (s : State) : Host.Outcome State Fault Refusal := s.complete hammingBody

end Sys2Proof.Machine
end

