-- ==== Sys2Proof/Machine/XorBreaker.lean ====
section
/-! DEFINITION. The XorBreaker commands BREAKSCORE and BREAKHITS (spec 45_xor_breaker.md). -/

namespace Sys2Proof.Machine

/-- The 256 keys in ascending order (45_xor_breaker.md R290). -/
def breakKeys : List Byte := (List.range 256).map (BitVec.ofNat 8)

/-- Candidate(c, k) (45_xor_breaker.md R291). -/
def candidate (c : Bytes) (k : Byte) : Bytes := c.map (fun b => xor8 b k)

/-- Survives(p): every byte plausible (45_xor_breaker.md R292). -/
def survives (p : Bytes) : Bool := p.all plausible

/-- The retained candidate of BREAKSCORE's loop (45_xor_breaker.md R293). -/
structure Best where
  key : Byte
  plain : Bytes
  score : Nat
  deriving DecidableEq, Repr

/-- One round of BREAKSCORE's loop: a surviving candidate replaces the retained one when its score is greater or equal
(45_xor_breaker.md R293, R296; 90_conflicts.md C3). -/
def keepBest (freq : Vector (BitVec 32) 256) (c : Bytes) (best : Option Best) (k : Byte) : Option Best :=
  if survives (candidate c k) then
    match best with
    | none => some { key := k, plain := candidate c k, score := letterScore freq (candidate c k) }
    | some b =>
      if b.score ≤ letterScore freq (candidate c k) then
        some { key := k, plain := candidate c k, score := letterScore freq (candidate c k) }
      else some b
  else best

/-- BREAKSCORE's search (45_xor_breaker.md R296). -/
def searchByScore (freq : Vector (BitVec 32) 256) (c : Bytes) : Option Best := breakKeys.foldl (keepBest freq c) none

/-- The reported result: only a best score > 1 (45_xor_breaker.md R293, R296). -/
def reportedBest (freq : Vector (BitVec 32) 256) (c : Bytes) : Option Best :=
  (searchByScore freq c).filter (fun b => decide (1 < b.score))

/-- Qualifies(c, k) (45_xor_breaker.md R300). -/
def qualifies (d : Bytes) (c : Bytes) (k : Byte) : Bool :=
  survives (candidate c k) && decide (c.length / 10 < wordHitCount d (candidate c k))

/-- The qualifying keys with their hit counts, in ascending key order (45_xor_breaker.md R301). -/
def searchByHits (d : Bytes) (c : Bytes) : List (Byte × Nat) :=
  (breakKeys.filter (qualifies d c)).map (fun k => (k, wordHitCount d (candidate c k)))

/-- A record: the key, then the hit count, least significant byte first (45_xor_breaker.md R302). -/
def hitRecord (kh : Byte × Nat) : Bytes := kh.1 :: leBytes (BitVec.ofNat 32 kh.2)

/-- BREAKSCORE (45_xor_breaker.md R296). -/
def breakscoreBody (s : State) (L : Latch) : Cmd Report := do
  requireDict s
  let c ← srcA s L
  match reportedBest s.freq c with
  | none => return {}
  | some b => do
    checkDst s L c.length
    return { out := some b.plain, result := b.score, key := b.key, found := true }

/-- BREAKHITS (45_xor_breaker.md R301). -/
def breakhitsBody (s : State) (L : Latch) : Cmd Report := do
  requireDict s
  let c ← srcA s L
  let hits := searchByHits s.dict c
  checkDst s L (5 * hits.length)
  return { out := some (hits.flatMap hitRecord), result := hits.length, found := decide (0 < hits.length) }

/-- BREAKSCORE's completion (40_command_cycle.md R142). -/
def execBreakscore (s : State) : Host.Outcome State Fault Refusal := s.complete breakscoreBody

/-- BREAKHITS's completion (40_command_cycle.md R142). -/
def execBreakhits (s : State) : Host.Outcome State Fault Refusal := s.complete breakhitsBody

end Sys2Proof.Machine
end

