-- ==== Sys2Proof/Machine/Dispatch.lean ====
section
/-! DEFINITION. The dispatch of Exec (spec 40_command_cycle.md R149), one arm per command. -/

namespace Sys2Proof.Machine

def exec (i : Instr) (s : State) : Host.Outcome State Fault Refusal :=
  match i with
  | .nop => Sys2Proof.Machine.execNop s
  | .hexenc => Sys2Proof.Machine.execHexenc s
  | .hexdec => Sys2Proof.Machine.execHexdec s
  | .xor => Sys2Proof.Machine.execXor s
  | .repxor => Sys2Proof.Machine.execRepxor s
  | .hamming => Sys2Proof.Machine.execHamming s
  | .b64enc => Sys2Proof.Machine.execB64enc s
  | .b64dec => Sys2Proof.Machine.execB64dec s
  | .dictload => Sys2Proof.Machine.execDictload s
  | .wordhits => Sys2Proof.Machine.execWordhits s
  | .letterscore => Sys2Proof.Machine.execLetterscore s
  | .breakscore => Sys2Proof.Machine.execBreakscore s
  | .breakhits => Sys2Proof.Machine.execBreakhits s
  | .reset => Sys2Proof.Machine.execReset s

end Sys2Proof.Machine
end

