-- ==== Sys2Proof/Machine/HostPort.lean ====
section
/-! DEFINITION. The host port and the host agent (spec 10_state.md R33 to R54, R60, R61, 20_memory.md R81 to R90, R97,
30_encoding.md R116). -/

namespace Sys2Proof.Machine

/-! ## The register window -/

/-- A register's offset (10_state.md section 3). -/
def RegName.offset : RegName → Nat
  | .id => 0x000
  | .cmd => 0x004
  | .status => 0x008
  | .aAddr => 0x00C
  | .aLen => 0x010
  | .bAddr => 0x014
  | .bLen => 0x018
  | .dAddr => 0x01C
  | .outLen => 0x020
  | .result => 0x024
  | .key => 0x028
  | .dictLen => 0x02C
  | .freq b => 0x400 + 4 * b.toNat

/-- The register at a 4-aligned offset of the window; none at a reserved offset (10_state.md R53). -/
def regAt (off : Nat) : Option RegName :=
  if off = 0x000 then some .id
  else if off = 0x004 then some .cmd
  else if off = 0x008 then some .status
  else if off = 0x00C then some .aAddr
  else if off = 0x010 then some .aLen
  else if off = 0x014 then some .bAddr
  else if off = 0x018 then some .bLen
  else if off = 0x01C then some .dAddr
  else if off = 0x020 then some .outLen
  else if off = 0x024 then some .result
  else if off = 0x028 then some .key
  else if off = 0x02C then some .dictLen
  else if 0x400 ≤ off ∧ off < 0x800 then some (.freq (BitVec.ofNat 8 ((off - 0x400) / 4)))
  else none

/-- The value a register holds: CMD reads 0 (10_state.md R34), KEY bits 31:8 read 0 (R50). -/
def State.regValue (s : State) : RegName → Word
  | .id => idValue
  | .cmd => 0#32
  | .status => statusWord s.busy s.done s.err s.dictValid s.found s.overrun s.errcode
  | .aAddr => s.aAddr
  | .aLen => s.aLen
  | .bAddr => s.bAddr
  | .bLen => s.bLen
  | .dAddr => s.dAddr
  | .outLen => s.outLen
  | .result => s.result
  | .key => s.key.setWidth 32
  | .dictLen => s.dictLen
  | .freq b => s.freq[b.toNat]'b.isLt

/-- The command in flight is DICTLOAD (10_state.md R54). -/
def State.dictloadInFlight (s : State) : Bool :=
  match s.latched with
  | some L => decide ((decode L.cmd).toOption = some .dictload)
  | none => false

/-- A read of this register now returns an unspecified value, at least in part (10_state.md R54). -/
def State.readIsFree (s : State) : RegName → Bool
  | .outLen => s.busy
  | .result => s.busy
  | .key => s.busy
  | .status => s.busy
  | .dictLen => s.dictloadInFlight
  | .freq _ => s.dictloadInFlight
  | .id => false
  | .cmd => false
  | .aAddr => false
  | .aLen => false
  | .bAddr => false
  | .bLen => false
  | .dAddr => false

/-- STATUS read while BUSY = 1: FOUND is bit 4 of a free draw, and DICT_VALID bit 3 of it while a DICTLOAD is in flight;
the other fields are defined (10_state.md R54; log 5). -/
def State.busyStatus (s : State) (draw : Word) : Word :=
  statusWord s.busy s.done s.err (if s.dictloadInFlight then draw.getLsbD 3 else s.dictValid) (draw.getLsbD 4)
    s.overrun s.errcode

/-- What a host read of a register returns: its value, or where R54 leaves it open a fresh free draw (any 32-bit value
for a register, KEY included: log 6). -/
def State.regRead (s : State) (r : RegName) : Word :=
  if s.readIsFree r then
    if r = .status then s.busyStatus (Config.freeWord s.draws) else Config.freeWord s.draws
  else s.regValue r

/-- The draw counter after a read. -/
def State.takeDraw (s : State) (free : Bool) : State := if free then { s with draws := s.draws + 1 } else s

/-- The host keeps what a read returned, as `$name` needs (30_encoding.md R116). -/
def State.logRead (s : State) (offset : Nat) (width : AccessWidth) (value : Word) : State :=
  { s with host := { s.host with reads := { offset := offset, width := width, value := value } :: s.host.reads } }

/-- A 32-bit register read; a reserved offset reads 0 (10_state.md R53). No state of the engine changes
(20_memory.md R89). -/
def State.hostRegRead (s : State) (off : Nat) : State :=
  match regAt off with
  | none => s.logRead off .w32 0#32
  | some r => (s.takeDraw (s.readIsFree r)).logRead off .w32 (s.regRead r)

/-- A CMD write: an issue when BUSY = 0, else only OVERRUN (40_command_cycle.md R140, R141). -/
def State.writeCmd (s : State) (v : Word) : State := if s.busy then { s with overrun := true } else s.issue v

/-- A STATUS write: clears OVERRUN when v[5] = 1, nothing else (10_state.md R35). -/
def State.writeStatus (s : State) (v : Word) : State := if v.getLsbD 5 then { s with overrun := false } else s

/-- A 32-bit register write; a read-only register ignores it (10_state.md R53). -/
def State.writeReg (s : State) (r : RegName) (v : Word) : State :=
  match r with
  | .cmd => s.writeCmd v
  | .status => s.writeStatus v
  | .aAddr => { s with aAddr := v }
  | .aLen => { s with aLen := v }
  | .bAddr => { s with bAddr := v }
  | .bLen => { s with bLen := v }
  | .dAddr => { s with dAddr := v }
  | .id => s
  | .outLen => s
  | .result => s
  | .key => s
  | .dictLen => s
  | .freq _ => s

/-- A 32-bit write to the register window; a reserved offset ignores it (10_state.md R53). -/
def State.hostRegWrite (s : State) (off : Nat) (v : Word) : State :=
  match regAt off with
  | none => s
  | some r => s.writeReg r v

/-- An access to the register window: 32-bit and 4-aligned, or HostBusError (20_memory.md R82). -/
def State.regWindow (s : State) (a : Access) : State :=
  if a.width = .w32 ∧ a.offset % 4 = 0 then
    match a.kind with
    | .read => s.hostRegRead a.offset
    | .write => s.hostRegWrite a.offset a.data
  else s.recordFault .hostBusError

/-! ## The DMEM window -/

/-- MemRead8(a): UninitRead where the byte holds no value (20_memory.md R90). -/
def State.hostMemRead8 (s : State) (a : Nat) : State :=
  match s.dmem.read a with
  | some b => s.logRead (0x10000 + a) .w8 (b.setWidth 32)
  | none => s.recordFault .uninitRead

/-- MemRead32(a), little-endian (20_memory.md R83). -/
def State.hostMemRead32 (s : State) (a : Nat) : State :=
  match s.dmem.read a, s.dmem.read (a + 1), s.dmem.read (a + 2), s.dmem.read (a + 3) with
  | some b0, some b1, some b2, some b3 => s.logRead (0x10000 + a) .w32 (leWord b0 b1 b2 b3)
  | _, _, _, _ => s.recordFault .uninitRead

/-- An access to the DMEM window at DMEM address a: HostRace while BUSY = 1, whatever the width (20_memory.md R97);
8-bit anywhere; 32-bit 4-aligned with all four bytes inside DMEM; else HostBusError (R82). Where one access meets two of
R97, R82 and R90 (a byte with no value), the spec gives no order: HostRace first, then HostBusError, then UninitRead is
the model's. DESIGN CHOICE, safe (log 9). -/
def State.dmemWindow (s : State) (acc : Access) (a : Nat) : State :=
  if s.busy then s.recordFault .hostRace
  else
    match acc.width, acc.kind with
    | .w8, .read => s.hostMemRead8 a
    | .w8, .write => { s with dmem := s.dmem.write a (acc.data.extractLsb' 0 8) }
    | .w32, .read =>
      if a % 4 = 0 ∧ a + 4 ≤ s.cfg.dmemSize then s.hostMemRead32 a else s.recordFault .hostBusError
    | .w32, .write =>
      if a % 4 = 0 ∧ a + 4 ≤ s.cfg.dmemSize then { s with dmem := s.dmem.writeBytes a (leBytes acc.data) }
      else s.recordFault .hostBusError
    | .w16, _ => s.recordFault .hostBusError

/-- One host transaction, by the host address map (20_memory.md R81). -/
def State.hostAccess (s : State) (a : Access) : State :=
  if a.offset < 0x1000 then s.regWindow a
  else if 0x10000 ≤ a.offset ∧ a.offset < 0x10000 + s.cfg.dmemSize then s.dmemWindow a (a.offset - 0x10000)
  else s.recordFault .hostBusError

/-! ## The host agent -/

/-- The statement the host runs next; none when its program is over or it stands at HALT (30_encoding.md R116). -/
def HostAgent.current (h : HostAgent) : Option HostStmt :=
  match h.program[h.pos]? with
  | some .halt => none
  | x => x

/-- Move to the next statement. -/
def State.advance (s : State) : State := { s with host := { s.host with pos := s.host.pos + 1 } }

/-- Move to the statement at index j. -/
def State.jumpTo (s : State) (j : Nat) : State := { s with host := { s.host with pos := j } }

/-- Where a label stands in a program (its first place). -/
def labelIndex (l : Label) : List HostStmt → Option Nat
  | [] => none
  | st :: t => if st = .mark l then some 0 else (labelIndex l t).map (· + 1)

/-- `$name`: what the last 32-bit read of the register returned (30_encoding.md R116). -/
def HostAgent.lastRead (h : HostAgent) (r : RegName) : Option Word :=
  (h.reads.find? (fun x => decide (x.offset = r.offset) && decide (x.width = .w32))).map (·.value)

/-- BIT.NZ: branch when the bit of `$name` is 1 (30_encoding.md R116). A register the host never read gives a free
draw (log 11); a label the program lacks is refused (log 12). -/
def State.hostBranch (s : State) (r : RegName) (bit : Nat) (l : Label) : Host.Outcome State Fault Refusal :=
  let v := (s.host.lastRead r).getD (Config.freeWord s.draws)
  let s' := s.takeDraw (s.host.lastRead r).isNone
  if v.getLsbD bit then
    match labelIndex l s.host.program with
    | some j => .next (s'.jumpTo j)
    | none => .refused .undefinedLabel
  else .next s'.advance

/-- The host's turn: one statement (10_state.md R60). With its program over the host does nothing and the engine waits
(60_exceptions.md R365), but a state with a recorded model fault is then no correct end (60_exceptions.md
section 3). -/
def State.hostStep (s : State) : Host.Outcome State Fault Refusal :=
  match s.host.current with
  | some (.access a) => .next (s.hostAccess a).advance
  | some (.mark _) => .next s.advance
  | some (.bitNZ r bit l) => s.hostBranch r bit l
  | some .halt => .next s
  | none =>
    match s.modelFault with
    | some f => .fault (.model f)
    | none => .next s

/-! ## The schedule -/

/-- Whose turn it is: the schedule's first entry, and with an empty schedule the engine's while it has a step, else the
host's (70_reset_and_hazards.md R397; log 7). -/
def State.nextTurn (s : State) : Turn :=
  match s.turns with
  | t :: _ => t
  | [] => if s.busy && s.modelFault.isNone then .engine else .host

/-- The turn is taken off the schedule. -/
def State.popTurn (s : State) : State := { s with turns := s.turns.tail }

/-- The schedule changed, if need be, so that the engine moves next. -/
def State.engineNext (s : State) : State :=
  match s.turns with
  | [] => s
  | t :: ts => { s with turns := .engine :: t :: ts }

end Sys2Proof.Machine
end

