-- ==== Sys2Proof/Machine/Step.lean ====
section
/-! DEFINITION. One step of the machine: the turn's agent moves (spec 20_memory.md R91, 40_command_cycle.md R142,
R149). -/

namespace Sys2Proof.Machine

/-- One step. The engine's turn completes the latched word: its command, or ILLEGAL_COMMAND (40_command_cycle.md R149);
with BUSY = 0 the engine has no step and its turn passes (R142). -/
def step (s : State) : Host.Outcome State Fault Refusal :=
  match s.nextTurn with
  | .host => s.popTurn.hostStep
  | .reset => .next s.popTurn.hardReset
  | .powerOn => .next s.popTurn.powerOn
  | .engine =>
    match s.latched with
    | none => .next s.popTurn
    | some L =>
      match decode L.cmd with
      | .ok i => exec i s.popTurn
      | .error _ => execIllegal s.popTurn

/-- The state in which the word with the low nbits bits of w has just been issued by a CMD write, so that the very next
step completes exactly it: the issue of 40_command_cycle.md R140 (the word and the operand registers latched), no model
fault recorded, and the engine's turn. The host's CMD write is this machine's only way to bring a command to the
engine (10_state.md R34; log 13). -/
def State.withFetchWord (s : State) (nbits w : Nat) : State :=
  { (s.issue (tableWord nbits w)).engineNext with modelFault := none }

end Sys2Proof.Machine
end

