-- ==== Sys2Proof/Machine/HostAsm.lean ====
section
/-! DEFINITION. Host assembly: what each line expands to, and the encoding of a host program as transactions (spec
30_encoding.md R116 to R118). -/

namespace Sys2Proof.Machine

/-- RegWrite(off(r), v) as a transaction. -/
def regWrite (r : RegName) (v : Word) : HostStmt :=
  .access { kind := .write, offset := r.offset, width := .w32, data := v }

/-- RegRead(off(r)) as a transaction. -/
def regReadStmt (r : RegName) : HostStmt := .access { kind := .read, offset := r.offset, width := .w32 }

/-- The write of byte v to DMEM[a]. -/
def memWriteByte (a : Nat) (v : Byte) : HostStmt :=
  .access { kind := .write, offset := 0x10000 + a, width := .w8, data := v.setWidth 32 }

/-- WAIT at statement `site`: `w: REG.R STATUS` then `BIT.NZ $STATUS, 0, w` (30_encoding.md R117). -/
def waitStmts (site : Nat) : List HostStmt :=
  [.mark (.wait site), regReadStmt .status, .bitNZ .status 0 (.wait site)]

/-- OPS (30_encoding.md R117). -/
def opsStmts (aa al ba bl da : Word) : List HostStmt :=
  [regWrite .aAddr aa, regWrite .aLen al, regWrite .bAddr ba, regWrite .bLen bl, regWrite .dAddr da]

/-- DATA: one byte write per byte, in increasing address (30_encoding.md R117). -/
def dataStmts (a : Nat) : Bytes → List HostStmt
  | [] => []
  | b :: bs => memWriteByte a b :: dataStmts (a + 1) bs

/-- What a line expands to; `site` is its place in the program, which names a WAIT's own label. -/
def expandStmt (site : Nat) : AsmStmt → List HostStmt
  | .regW r v => [regWrite r v]
  | .regR r => [regReadStmt r]
  | .memWB a v => [memWriteByte a v]
  | .memWW a v => [.access { kind := .write, offset := 0x10000 + a, width := .w32, data := v }]
  | .memRB a => [.access { kind := .read, offset := 0x10000 + a, width := .w8 }]
  | .memRW a => [.access { kind := .read, offset := 0x10000 + a, width := .w32 }]
  | .cmd i => [regWrite .cmd (encode i)]
  | .label l => [.mark l]
  | .bitNZ r bit l => [.bitNZ r bit l]
  | .halt => [.halt]
  | .wait => waitStmts site
  | .data a s => dataStmts a s
  | .ops aa al ba bl da => opsStmts aa al ba bl da
  | .run i aa al ba bl da => opsStmts aa al ba bl da ++ [regWrite .cmd (encode i)] ++ waitStmts site
  | .clrovr => [regWrite .status 0x20#32]
  | .check => [regReadStmt .status, .bitNZ .status 2 .fail]

/-- A program's statements from line `site` on. -/
def expandFrom (site : Nat) : List AsmStmt → List HostStmt
  | [] => []
  | x :: xs => expandStmt site x ++ expandFrom (site + 1) xs

/-- A program's statements. -/
def expandProgram (p : List AsmStmt) : List HostStmt := expandFrom 0 p

/-- The transactions of a straight run through statements; a label, a BIT.NZ or a HALT emits none (30_encoding.md
R118). -/
def transactionsOf : List HostStmt → List Access
  | [] => []
  | .access a :: t => a :: transactionsOf t
  | .mark _ :: t => transactionsOf t
  | .bitNZ _ _ _ :: t => transactionsOf t
  | .halt :: t => transactionsOf t

/-- A machine whose host is about to run this program. -/
def State.withProgram (s : State) (p : List AsmStmt) : State :=
  { s with host := { s.host with program := expandProgram p, pos := 0 } }

end Sys2Proof.Machine
end

