-- ==== Sys2Proof/Safety.lean ====
section
/-! DEFINITION. The terms claims use: a command in flight, the state a completion leaves, and the machine's
invariant. -/

namespace Sys2Proof.Machine

/-- The engine has a step: L is in flight and no model fault is recorded (spec 40_command_cycle.md R142). -/
abbrev State.Running (s : State) (L : Latch) : Prop := s.modelFault = none ∧ s.latched = some L

/-- The range (addr, n) is inside DMEM (20_memory.md R85). -/
abbrev State.Inside (s : State) (addr : Word) (n : Nat) : Prop := addr.toNat + n ≤ s.cfg.dmemSize

/-- The n bytes of DMEM from addr on hold the byte string bs (00_scope.md R14 `MemRead`, 20_memory.md R84). -/
abbrev State.Holds (s : State) (addr : Word) (n : Nat) (bs : Bytes) : Prop :=
  bs.length = n ∧ ∀ i, i < n → s.dmem.read (addr.toNat + i) = bs[i]?

/-- Some byte of the n bytes of DMEM from addr on holds no value (40_command_cycle.md R147). -/
abbrev State.HasHole (s : State) (addr : Word) (n : Nat) : Prop := ∃ i, i < n ∧ s.dmem.read (addr.toNat + i) = none

/-- An outcome with its next state changed. -/
def mapNext (f : State → State) : Host.Outcome State Fault Refusal → Host.Outcome State Fault Refusal
  | .next t => .next (f t)
  | .fault r => .fault r
  | .refused r => .refused r

/-- The state after a success without a new dictionary, field by field (40_command_cycle.md R142, R144). `out` is the
byte string written at L.D_ADDR, empty for a command without a destination. -/
def State.succeeded (s : State) (L : Latch) (out : Bytes) (result : Nat) (key : Byte) (found : Bool) : State :=
  { s with
    dmem := s.dmem.writeBytes L.dAddr.toNat out
    outLen := BitVec.ofNat 32 out.length
    result := BitVec.ofNat 32 result
    key := key
    found := found
    err := false
    errcode := 0#4
    done := true
    latched := none }

/-- The state after a failure with code c, field by field (40_command_cycle.md R142, R145). -/
def State.failed (s : State) (c : ErrCode) : State :=
  { s with
    outLen := 0#32
    result := 0#32
    key := 0#8
    found := false
    err := true
    errcode := c.code
    done := true
    latched := none }

/-- No model fault is recorded: the only states a run may correctly end in (60_exceptions.md section 3). -/
def State.Safe (s : State) : Prop := s.modelFault = none

/-- The invariant of the machine: the parameters' constraint (00_scope.md R8); DMEM canonical and inside its size
(20_memory.md R80); DICT within its capacity (10_state.md R51); FREQ the table of DICT (R58); no dictionary while
DICT_VALID = 0 (R52); ERR exactly when ERRCODE is not 0 (R38); no code above 8 (R42, 60_exceptions.md R340); DONE 0 while
BUSY = 1 (R36, R37). -/
structure State.Inv (s : State) : Prop where
  cfg_wf : s.cfg.wf = true
  dmem_wf : s.dmem.wf = true
  dmem_below : s.dmem.below s.cfg.dmemSize = true
  dict_cap : s.dict.length ≤ s.cfg.dictCap
  freq_memo : s.freq = freqTable s.dict
  dict_empty : s.dictValid = false → s.dict = []
  err_iff : s.err = true ↔ s.errcode ≠ 0#4
  errcode_le : s.errcode.toNat ≤ 8
  busy_not_done : s.busy = true → s.done = false

end Sys2Proof.Machine
end

