-- ==== Sys2Proof/Certificates/Slice0/Obligations.lean ====
section
/-! DEFINITION. The statements about the machine, for the provers. Each def says which rule of spec/ it formalises. -/

open Sys2Proof Sys2Proof.Machine

/-! ## Encoding -/

/-- Every command's word decodes to the command (30_encoding.md R112). -/
def Obligations.DecodeOfEncode : Prop := ∀ i : Instr, i.wf = true → decode (encode i) = .ok i

/-- Decoding is total and exact on all 2^32 words: it answers a command on that command's word alone, and rejects
exactly the words R114 lists, saying which of its two reasons applies (30_encoding.md R113, R114). -/
def Obligations.DecodeExactlyAssignedWords : Prop :=
  ∀ w : Word,
    (∀ i : Instr, decode w = .ok i ↔ w = encode i) ∧
    (decode w = .error .reservedBits ↔ w.toNat / 256 ≠ 0) ∧
    (decode w = .error .unassignedOpcode ↔
      w.toNat / 256 = 0 ∧ (w.toNat = 0x0D ∨ w.toNat = 0x0E ∨ 0x10 ≤ w.toNat))

/-- Words written out from 30_encoding.md R112 decode to the commands they stand for. -/
def Obligations.WrittenWordsDecode : Prop :=
  decode 0x00000000#32 = .ok .nop ∧ decode 0x00000003#32 = .ok .xor ∧ decode 0x00000007#32 = .ok .b64dec ∧
  decode 0x0000000A#32 = .ok .letterscore ∧ decode 0x0000000C#32 = .ok .breakhits ∧
  decode 0x0000000F#32 = .ok .reset ∧ decode 0x0000000D#32 = .error .unassignedOpcode ∧
  decode 0x00000110#32 = .error .reservedBits

/-! ## The command cycle -/

/-- A step runs the decoded command: on the engine's turn, with a latched word that decodes to i, the step is exec of i
at the state with the turn taken (40_command_cycle.md R142, R149). -/
def Obligations.StepRunsDecodedCommand : Prop :=
  ∀ (s : State) (L : Latch) (i : Instr), s.nextTurn = .engine → s.latched = some L → decode L.cmd = .ok i →
    step s = exec i s.popTurn

/-- A host transaction takes the host's turn: the access takes effect and the host moves to its next statement
(10_state.md R60, 20_memory.md R91). -/
def Obligations.StepRunsHostAccess : Prop :=
  ∀ (s : State) (a : Access), s.nextTurn = .host → s.host.current = some (.access a) →
    step s = .next (s.popTurn.hostAccess a).advance

/-- An illegal word completes with ILLEGAL_COMMAND, code 3, and no other effect, whatever the operand registers hold
(60_exceptions.md R343, 30_encoding.md R114). -/
def Obligations.IllegalWordCompletesWithCode3 : Prop :=
  ErrCode.illegalCommand.code = 3#4 ∧
  ∀ (s : State) (L : Latch), s.nextTurn = .engine → s.Running L →
    (L.cmd.toNat / 256 ≠ 0 ∨ L.cmd.toNat % 256 = 0x0D ∨ L.cmd.toNat % 256 = 0x0E ∨ 0x10 ≤ L.cmd.toNat % 256) →
    step s = .next (s.popTurn.failed .illegalCommand)

/-- A CMD write while BUSY = 0 issues: L is the word and the five operand registers, BUSY 1, DONE, ERR, ERRCODE 0, all
else unchanged (40_command_cycle.md R140). -/
def Obligations.CmdWriteIssues : Prop :=
  ∀ (s : State) (v : Word), s.busy = false →
    s.hostAccess { kind := .write, offset := 0x004, width := .w32, data := v } =
      { s with
        latched := some { cmd := v, aAddr := s.aAddr, aLen := s.aLen, bAddr := s.bAddr, bLen := s.bLen,
                          dAddr := s.dAddr }
        done := false
        err := false
        errcode := 0#4 }

/-- A CMD write while BUSY = 1 only sets OVERRUN, and the command in flight then completes as if it had not been
written (40_command_cycle.md R141); a completion other than RESET's leaves OVERRUN as it finds it (10_state.md R41). -/
def Obligations.CmdWriteWhileBusyOnlyOverruns : Prop :=
  ∀ (s : State) (v : Word), s.busy = true →
    s.hostAccess { kind := .write, offset := 0x004, width := .w32, data := v } = { s with overrun := true } ∧
    (∀ i : Instr, i ≠ .reset →
      exec i { s with overrun := true } = mapNext (fun t => { t with overrun := true }) (exec i s)) ∧
    (s.modelFault = none → exec .reset { s with overrun := true } = exec .reset s)

/-- The engine's step: with a command in flight and no model fault, every command either completes (BUSY 0, DONE 1, no
model fault) or records UninitRead and changes nothing else (40_command_cycle.md R142). -/
def Obligations.EveryCommandCompletesOrRecordsUninitRead : Prop :=
  ∀ (i : Instr) (s : State) (L : Latch), s.Running L →
    ∃ t, exec i s = .next t ∧
      ((t.busy = false ∧ t.done = true ∧ t.modelFault = none) ∨ t = { s with modelFault := some .uninitRead })

/-- A command that completes with ERR = 1 has changed nothing but its report (40_command_cycle.md R145). -/
def Obligations.FailedCommandHasNoEffectButItsReport : Prop :=
  ∀ (i : Instr) (s t : State), exec i s = .next t → t.busy = false → t.err = true → ∃ c : ErrCode, t = s.failed c

/-- Progress: with a command in flight, no model fault and a host program whose branches have their labels, within one
step more than the schedule is long a model fault is recorded or the command is no longer in flight: it has completed
(DONE 1), or, only where the schedule holds a reset or a power-on, one of these has abandoned it
(70_reset_and_hazards.md R397, R384; the schedule, and with it the bound, is the model's choice, log 7). -/
def Obligations.IssuedCommandCompletesInBoundedSteps : Prop :=
  ∀ s : State, s.busy = true → s.modelFault = none →
    branchesDefined (labelsOf s.host.program) s.host.program = true →
    ∃ n t, n ≤ s.turns.length + 1 ∧ Host.Core.run Sys2Proof.core n s = .next t ∧
      (t.modelFault ≠ none ∨
        t.busy = false ∧ ((∀ u ∈ s.turns, u ≠ .reset ∧ u ≠ .powerOn) → t.done = true))

/-! ## The commands -/

/-- NOP (46_control.md R320). -/
def Obligations.NopCompletesWithZeroResults : Prop :=
  decode 0x00000000#32 = .ok .nop ∧
  ∀ (s : State) (L : Latch), s.Running L → exec .nop s = .next (s.succeeded L [] 0 0#8 false)

/-- RESET (46_control.md R321): every register at its reset value, DICT without values, DMEM unchanged, BUSY 0 and
DONE 1. -/
def Obligations.ResetCommandClearsRegistersKeepsDmem : Prop :=
  decode 0x0000000F#32 = .ok .reset ∧
  ∀ (s : State) (L : Latch), s.Running L →
    exec .reset s = .next
      { State.reset with
        done := true
        cfg := s.cfg
        dmem := s.dmem
        host := s.host
        turns := s.turns
        draws := s.draws }

/-- HEXENC (42_hex_sequence.md R191), every outcome. -/
def Obligations.HexencResult : Prop :=
  decode 0x00000001#32 = .ok .hexenc ∧
  ∀ (s : State) (L : Latch), s.Running L →
    (¬ s.Inside L.aAddr L.aLen.toNat → exec .hexenc s = .next (s.failed .addressRange)) ∧
    (s.Inside L.aAddr L.aLen.toNat → s.HasHole L.aAddr L.aLen.toNat →
      exec .hexenc s = .next (s.recordFault .uninitRead)) ∧
    ∀ a : Bytes, s.Inside L.aAddr L.aLen.toNat → s.Holds L.aAddr L.aLen.toNat a →
      (s.Inside L.dAddr (2 * a.length) → exec .hexenc s = .next (s.succeeded L (a.flatMap toHexText) 0 0#8 false)) ∧
      (¬ s.Inside L.dAddr (2 * a.length) → exec .hexenc s = .next (s.failed .addressRange))

/-- HEXDEC (42_hex_sequence.md R195), every outcome; the text is legal when its length is even and every byte is a hex
digit of either case, and then byte i of the output is FromHexDigits of digits 2i and 2i+1. -/
def Obligations.HexdecResult : Prop :=
  decode 0x00000002#32 = .ok .hexdec ∧
  ∀ (s : State) (L : Latch), s.Running L →
    (¬ s.Inside L.aAddr L.aLen.toNat → exec .hexdec s = .next (s.failed .addressRange)) ∧
    (s.Inside L.aAddr L.aLen.toNat → s.HasHole L.aAddr L.aLen.toNat →
      exec .hexdec s = .next (s.recordFault .uninitRead)) ∧
    ∀ t : Bytes, s.Inside L.aAddr L.aLen.toNat → s.Holds L.aAddr L.aLen.toNat t →
      ((t.length % 2 ≠ 0 ∨ ∃ c ∈ t, hexVal c = none) → exec .hexdec s = .next (s.failed .invalidFormat)) ∧
      (t.length % 2 = 0 → (∀ c ∈ t, hexVal c ≠ none) →
        ∃ out : Bytes, out.length = t.length / 2 ∧
          (∀ i, i < out.length → out[i]? = fromHexDigits (t.getD (2 * i) 0#8) (t.getD (2 * i + 1) 0#8)) ∧
          (s.Inside L.dAddr (t.length / 2) → exec .hexdec s = .next (s.succeeded L out 0 0#8 false)) ∧
          (¬ s.Inside L.dAddr (t.length / 2) → exec .hexdec s = .next (s.failed .addressRange)))

/-- XOR (42_hex_sequence.md R200), every outcome, in the rule's order of checks. -/
def Obligations.XorResult : Prop :=
  decode 0x00000003#32 = .ok .xor ∧
  ∀ (s : State) (L : Latch), s.Running L →
    (¬ s.Inside L.aAddr L.aLen.toNat → exec .xor s = .next (s.failed .addressRange)) ∧
    (s.Inside L.aAddr L.aLen.toNat → s.HasHole L.aAddr L.aLen.toNat →
      exec .xor s = .next (s.recordFault .uninitRead)) ∧
    ∀ a : Bytes, s.Inside L.aAddr L.aLen.toNat → s.Holds L.aAddr L.aLen.toNat a →
      (¬ s.Inside L.bAddr L.bLen.toNat → exec .xor s = .next (s.failed .addressRange)) ∧
      (s.Inside L.bAddr L.bLen.toNat → s.HasHole L.bAddr L.bLen.toNat →
        exec .xor s = .next (s.recordFault .uninitRead)) ∧
      ∀ b : Bytes, s.Inside L.bAddr L.bLen.toNat → s.Holds L.bAddr L.bLen.toNat b →
        (L.aLen ≠ L.bLen → exec .xor s = .next (s.failed .lengthMismatch)) ∧
        (L.aLen = L.bLen → s.Inside L.dAddr a.length →
          exec .xor s = .next (s.succeeded L (List.zipWith (· ^^^ ·) a b) 0 0#8 false)) ∧
        (L.aLen = L.bLen → ¬ s.Inside L.dAddr a.length → exec .xor s = .next (s.failed .addressRange))

/-- REPXOR (42_hex_sequence.md R206), every outcome; byte i of the output is byte i of the data XOR key byte
i mod m. -/
def Obligations.RepxorResult : Prop :=
  decode 0x00000004#32 = .ok .repxor ∧
  ∀ (s : State) (L : Latch), s.Running L →
    (¬ s.Inside L.aAddr L.aLen.toNat → exec .repxor s = .next (s.failed .addressRange)) ∧
    (s.Inside L.aAddr L.aLen.toNat → s.HasHole L.aAddr L.aLen.toNat →
      exec .repxor s = .next (s.recordFault .uninitRead)) ∧
    ∀ a : Bytes, s.Inside L.aAddr L.aLen.toNat → s.Holds L.aAddr L.aLen.toNat a →
      (¬ s.Inside L.bAddr L.bLen.toNat → exec .repxor s = .next (s.failed .addressRange)) ∧
      (s.Inside L.bAddr L.bLen.toNat → s.HasHole L.bAddr L.bLen.toNat →
        exec .repxor s = .next (s.recordFault .uninitRead)) ∧
      ∀ k : Bytes, s.Inside L.bAddr L.bLen.toNat → s.Holds L.bAddr L.bLen.toNat k →
        (L.bLen = 0#32 → exec .repxor s = .next (s.failed .emptyKey)) ∧
        (L.bLen ≠ 0#32 →
          ∃ out : Bytes, out.length = a.length ∧
            (∀ i, i < a.length → out[i]? = some (a.getD i 0#8 ^^^ k.getD (i % k.length) 0#8)) ∧
            (s.Inside L.dAddr a.length → exec .repxor s = .next (s.succeeded L out 0 0#8 false)) ∧
            (¬ s.Inside L.dAddr a.length → exec .repxor s = .next (s.failed .addressRange)))

/-- HAMMING (42_hex_sequence.md R210), every outcome; D_ADDR is not checked. -/
def Obligations.HammingResult : Prop :=
  decode 0x00000005#32 = .ok .hamming ∧
  ∀ (s : State) (L : Latch), s.Running L →
    (¬ s.Inside L.aAddr L.aLen.toNat → exec .hamming s = .next (s.failed .addressRange)) ∧
    (s.Inside L.aAddr L.aLen.toNat → s.HasHole L.aAddr L.aLen.toNat →
      exec .hamming s = .next (s.recordFault .uninitRead)) ∧
    ∀ a : Bytes, s.Inside L.aAddr L.aLen.toNat → s.Holds L.aAddr L.aLen.toNat a →
      (¬ s.Inside L.bAddr L.bLen.toNat → exec .hamming s = .next (s.failed .addressRange)) ∧
      (s.Inside L.bAddr L.bLen.toNat → s.HasHole L.bAddr L.bLen.toNat →
        exec .hamming s = .next (s.recordFault .uninitRead)) ∧
      ∀ b : Bytes, s.Inside L.bAddr L.bLen.toNat → s.Holds L.bAddr L.bLen.toNat b →
        (L.aLen ≠ L.bLen → exec .hamming s = .next (s.failed .lengthMismatch)) ∧
        (L.aLen = L.bLen →
          exec .hamming s = .next (s.succeeded L [] (List.zipWith bitDifference a b).sum 0#8 false))

/-- B64ENC (43_base64.md R233), every outcome. -/
def Obligations.B64encResult : Prop :=
  decode 0x00000006#32 = .ok .b64enc ∧
  ∀ (s : State) (L : Latch), s.Running L →
    (¬ s.Inside L.aAddr L.aLen.toNat → exec .b64enc s = .next (s.failed .addressRange)) ∧
    (s.Inside L.aAddr L.aLen.toNat → s.HasHole L.aAddr L.aLen.toNat →
      exec .b64enc s = .next (s.recordFault .uninitRead)) ∧
    ∀ a : Bytes, s.Inside L.aAddr L.aLen.toNat → s.Holds L.aAddr L.aLen.toNat a →
      (s.Inside L.dAddr (4 * ((a.length + 2) / 3)) →
        exec .b64enc s = .next (s.succeeded L ((b64Values a).map b64Render) 0 0#8 false)) ∧
      (¬ s.Inside L.dAddr (4 * ((a.length + 2) / 3)) → exec .b64enc s = .next (s.failed .addressRange))

/-- B64DEC (43_base64.md R238), every outcome; the output of a text that parses with p padding bytes has
3 * (A_LEN / 4) - p bytes. -/
def Obligations.B64decResult : Prop :=
  decode 0x00000007#32 = .ok .b64dec ∧
  ∀ (s : State) (L : Latch), s.Running L →
    (¬ s.Inside L.aAddr L.aLen.toNat → exec .b64dec s = .next (s.failed .addressRange)) ∧
    (s.Inside L.aAddr L.aLen.toNat → s.HasHole L.aAddr L.aLen.toNat →
      exec .b64dec s = .next (s.recordFault .uninitRead)) ∧
    ∀ t : Bytes, s.Inside L.aAddr L.aLen.toNat → s.Holds L.aAddr L.aLen.toNat t →
      (b64Parse t = none → exec .b64dec s = .next (s.failed .invalidFormat)) ∧
      ∀ (vals : List Nat) (p : Nat), b64Parse t = some (vals, p) →
        (b64Decode vals p).length = 3 * (t.length / 4) - p ∧
        (s.Inside L.dAddr (b64Decode vals p).length →
          exec .b64dec s = .next (s.succeeded L (b64Decode vals p) 0 0#8 false)) ∧
        (¬ s.Inside L.dAddr (b64Decode vals p).length → exec .b64dec s = .next (s.failed .addressRange))

/-- DICTLOAD (44_frequency.md R264), every outcome: DICT_LOADED, then the range, then CAPACITY. -/
def Obligations.DictloadResult : Prop :=
  decode 0x00000008#32 = .ok .dictload ∧
  ∀ (s : State) (L : Latch), s.Running L →
    (s.dictValid = true → exec .dictload s = .next (s.failed .dictLoaded)) ∧
    (s.dictValid = false → ¬ s.Inside L.aAddr L.aLen.toNat →
      exec .dictload s = .next (s.failed .addressRange)) ∧
    (s.dictValid = false → s.Inside L.aAddr L.aLen.toNat → s.HasHole L.aAddr L.aLen.toNat →
      exec .dictload s = .next (s.recordFault .uninitRead)) ∧
    ∀ d : Bytes, s.dictValid = false → s.Inside L.aAddr L.aLen.toNat → s.Holds L.aAddr L.aLen.toNat d →
      (s.cfg.dictCap < d.length → exec .dictload s = .next (s.failed .capacity)) ∧
      (d.length ≤ s.cfg.dictCap →
        exec .dictload s = .next
          { s.succeeded L [] (wordsOf d).length 0#8 false with dict := d, freq := freqTable d, dictValid := true })

/-- WORDHITS (44_frequency.md R268), every outcome. -/
def Obligations.WordhitsResult : Prop :=
  decode 0x00000009#32 = .ok .wordhits ∧
  ∀ (s : State) (L : Latch), s.Running L →
    (s.dictValid = false → exec .wordhits s = .next (s.failed .noDictionary)) ∧
    (s.dictValid = true → ¬ s.Inside L.aAddr L.aLen.toNat → exec .wordhits s = .next (s.failed .addressRange)) ∧
    (s.dictValid = true → s.Inside L.aAddr L.aLen.toNat → s.HasHole L.aAddr L.aLen.toNat →
      exec .wordhits s = .next (s.recordFault .uninitRead)) ∧
    ∀ t : Bytes, s.dictValid = true → s.Inside L.aAddr L.aLen.toNat → s.Holds L.aAddr L.aLen.toNat t →
      exec .wordhits s = .next (s.succeeded L [] (wordHitCount s.dict t) 0#8 false)

/-- LETTERSCORE (44_frequency.md R273), every outcome. -/
def Obligations.LetterscoreResult : Prop :=
  decode 0x0000000A#32 = .ok .letterscore ∧
  ∀ (s : State) (L : Latch), s.Running L →
    (s.dictValid = false → exec .letterscore s = .next (s.failed .noDictionary)) ∧
    (s.dictValid = true → ¬ s.Inside L.aAddr L.aLen.toNat →
      exec .letterscore s = .next (s.failed .addressRange)) ∧
    (s.dictValid = true → s.Inside L.aAddr L.aLen.toNat → s.HasHole L.aAddr L.aLen.toNat →
      exec .letterscore s = .next (s.recordFault .uninitRead)) ∧
    ∀ t : Bytes, s.dictValid = true → s.Inside L.aAddr L.aLen.toNat → s.Holds L.aAddr L.aLen.toNat t →
      exec .letterscore s =
        .next (s.succeeded L [] (t.map (fun b => (s.freq[b.toNat]'b.isLt).toNat)).sum 0#8 false)

/-- BREAKSCORE (45_xor_breaker.md R296), every outcome; without a result D_ADDR is not checked. -/
def Obligations.BreakscoreResult : Prop :=
  decode 0x0000000B#32 = .ok .breakscore ∧
  ∀ (s : State) (L : Latch), s.Running L →
    (s.dictValid = false → exec .breakscore s = .next (s.failed .noDictionary)) ∧
    (s.dictValid = true → ¬ s.Inside L.aAddr L.aLen.toNat →
      exec .breakscore s = .next (s.failed .addressRange)) ∧
    (s.dictValid = true → s.Inside L.aAddr L.aLen.toNat → s.HasHole L.aAddr L.aLen.toNat →
      exec .breakscore s = .next (s.recordFault .uninitRead)) ∧
    ∀ c : Bytes, s.dictValid = true → s.Inside L.aAddr L.aLen.toNat → s.Holds L.aAddr L.aLen.toNat c →
      (reportedBest s.freq c = none → exec .breakscore s = .next (s.succeeded L [] 0 0#8 false)) ∧
      ∀ b : Best, reportedBest s.freq c = some b →
        (s.Inside L.dAddr c.length → exec .breakscore s = .next (s.succeeded L b.plain b.score b.key true)) ∧
        (¬ s.Inside L.dAddr c.length → exec .breakscore s = .next (s.failed .addressRange))

/-- BREAKHITS (45_xor_breaker.md R301), every outcome; the destination is checked also with no records. -/
def Obligations.BreakhitsResult : Prop :=
  decode 0x0000000C#32 = .ok .breakhits ∧
  ∀ (s : State) (L : Latch), s.Running L →
    (s.dictValid = false → exec .breakhits s = .next (s.failed .noDictionary)) ∧
    (s.dictValid = true → ¬ s.Inside L.aAddr L.aLen.toNat →
      exec .breakhits s = .next (s.failed .addressRange)) ∧
    (s.dictValid = true → s.Inside L.aAddr L.aLen.toNat → s.HasHole L.aAddr L.aLen.toNat →
      exec .breakhits s = .next (s.recordFault .uninitRead)) ∧
    ∀ c : Bytes, s.dictValid = true → s.Inside L.aAddr L.aLen.toNat → s.Holds L.aAddr L.aLen.toNat c →
      (s.Inside L.dAddr (5 * (searchByHits s.dict c).length) →
        exec .breakhits s = .next (s.succeeded L ((searchByHits s.dict c).flatMap hitRecord)
          (searchByHits s.dict c).length 0#8 (decide (0 < (searchByHits s.dict c).length)))) ∧
      (¬ s.Inside L.dAddr (5 * (searchByHits s.dict c).length) →
        exec .breakhits s = .next (s.failed .addressRange))

/-! ## Frames -/

/-- The storing commands change no byte of DMEM outside [L.D_ADDR, L.D_ADDR + OUT_LEN), OUT_LEN as they leave it, and
no operand register, dictionary state, OVERRUN or environment; a failed completion, and a BREAKSCORE that completes
without a result, leave OUT_LEN 0 and every byte of DMEM as it was (40_command_cycle.md R144, R145, R148,
45_xor_breaker.md R296). -/
def Obligations.StoringCommandsFrame : Prop :=
  ∀ i ∈ [Instr.hexenc, .hexdec, .xor, .repxor, .b64enc, .b64dec, .breakscore, .breakhits],
    ∀ (s t : State) (L : Latch), s.cfg.wf = true → s.latched = some L → exec i s = .next t →
      (∀ a : Nat, ¬ (L.dAddr.toNat ≤ a ∧ a < L.dAddr.toNat + t.outLen.toNat) → t.dmem.read a = s.dmem.read a) ∧
      (t.busy = true ∨ t.err = true → t.dmem = s.dmem) ∧
      (t.busy = false → t.err = true ∨ (i = .breakscore ∧ t.found = false) → t.outLen = 0#32 ∧ t.dmem = s.dmem) ∧
      t.aAddr = s.aAddr ∧ t.aLen = s.aLen ∧ t.bAddr = s.bAddr ∧ t.bLen = s.bLen ∧ t.dAddr = s.dAddr ∧
      t.dict = s.dict ∧ t.freq = s.freq ∧ t.dictValid = s.dictValid ∧ t.overrun = s.overrun ∧
      t.cfg = s.cfg ∧ t.host = s.host ∧ t.turns = s.turns ∧ t.draws = s.draws

/-- The commands without a destination change no byte of DMEM, no operand register, OVERRUN or environment, and the
dictionary state only by DICTLOAD (40_command_cycle.md R144, R148, 10_state.md R56). -/
def Obligations.NonStoringCommandsFrame : Prop :=
  ∀ i ∈ [Instr.nop, .hamming, .dictload, .wordhits, .letterscore],
    ∀ s t : State, exec i s = .next t →
      (∀ a : Nat, t.dmem.read a = s.dmem.read a) ∧
      t.aAddr = s.aAddr ∧ t.aLen = s.aLen ∧ t.bAddr = s.bAddr ∧ t.bLen = s.bLen ∧ t.dAddr = s.dAddr ∧
      t.overrun = s.overrun ∧ t.cfg = s.cfg ∧ t.host = s.host ∧ t.turns = s.turns ∧ t.draws = s.draws ∧
      (i ≠ .dictload → t.dict = s.dict ∧ t.freq = s.freq ∧ t.dictValid = s.dictValid)

/-- The dictionary is immutable once loaded: while DICT_VALID = 1 no command but RESET changes DICT, FREQ or
DICT_VALID (10_state.md R56, R58, 70_reset_and_hazards.md R393). -/
def Obligations.LoadedDictionaryIsImmutable : Prop :=
  ∀ (i : Instr) (s t : State), i ≠ .reset → s.dictValid = true → exec i s = .next t →
    t.dict = s.dict ∧ t.freq = s.freq ∧ t.dictValid = true

/-- Operand registers are latched: a host write at the offset of one of them while a command is in flight changes
nothing of the command's outcome but that register (10_state.md R55, 70_reset_and_hazards.md R391). RESET clears them
itself. -/
def Obligations.OperandWritesDoNotDisturbCommand : Prop :=
  ∀ (s : State) (off : Nat) (v : Word), off ∈ [0x00C, 0x010, 0x014, 0x018, 0x01C] → s.busy = true →
    (∀ i : Instr, i ≠ .reset →
      exec i (s.hostAccess { kind := .write, offset := off, width := .w32, data := v }) =
        mapNext (fun t => t.hostAccess { kind := .write, offset := off, width := .w32, data := v }) (exec i s)) ∧
    exec .reset (s.hostAccess { kind := .write, offset := off, width := .w32, data := v }) = exec .reset s

/-! ## The invariant -/

/-- Power-on: the invariant holds at State.reset and at the same state of every instance (log 3); every register reads
its reset value, DICT and every DMEM byte have no value, no command is latched; and a power-on turn leaves exactly that
state (70_reset_and_hazards.md R380, R381). That the turn keeps the recorded model fault and the environment is the
model's choice (log 19, log 7). -/
def Obligations.InvariantHoldsAtReset : Prop :=
  State.reset.Inv ∧
  (∀ p : Params, p.wf = true → State.Inv { State.reset with cfg := p }) ∧
  (∀ r : RegName, State.reset.regValue r = if r = .id then 0x43580001#32 else 0#32) ∧
  State.reset.dict = [] ∧ State.reset.latched = none ∧ (∀ a : Nat, State.reset.dmem.read a = none) ∧
  ∀ s : State, s.nextTurn = .powerOn →
    step s = .next
      { State.reset with
        cfg := s.cfg
        modelFault := s.modelFault
        host := s.host
        turns := s.turns.tail
        draws := s.draws }

/-- Every step of every agent keeps the invariant: DMEM canonical and inside its size, DICT within its capacity, FREQ the
table of DICT, ERR exactly when ERRCODE is not 0, ERRCODE at most 8, DONE 0 while BUSY = 1 (State.Inv cites the
rules). -/
def Obligations.EveryStepKeepsInvariant : Prop := ∀ s t : State, s.Inv → step s = .next t → t.Inv

/-- A recorded model fault is never cleared by a step, not even by a hard reset (10_state.md R62,
70_reset_and_hazards.md R383), and with one recorded the engine has no step: no command changes the state
(40_command_cycle.md R142). The model's choices beside these rules: the fault kept is the first one, also when another
occurs (log 10); a power-on keeps it too (log 19); a completion asked for then answers the outcome fault (log 8); and no
step changes the parameters (log 3). -/
def Obligations.RecordedModelFaultIsNeverCleared : Prop :=
  (∀ s t : State, step s = .next t → t.cfg = s.cfg ∧ ∀ f, s.modelFault = some f → t.modelFault = some f) ∧
  ∀ (i : Instr) (s : State) (f : ModelFault), s.modelFault = some f → exec i s = .fault (.model f)

/-! ## The host port -/

/-- ID reads 0x43580001 at all times and a write to it is ignored (10_state.md R33). -/
def Obligations.IdReadsConstant : Prop :=
  RegName.id.offset = 0x000 ∧
  ∀ (s : State) (v : Word),
    s.regRead .id = 0x43580001#32 ∧
    s.hostAccess { kind := .read, offset := 0x000, width := .w32 } = s.logRead 0x000 .w32 0x43580001#32 ∧
    s.hostAccess { kind := .write, offset := 0x000, width := .w32, data := v } = s

/-- The register window, offset by offset. Reserved offsets read 0 and ignore writes, and so do writes to the read-only
registers (10_state.md R53). A write to 0x00C..0x01C sets A_ADDR..D_ADDR to the whole word and nothing else, and a read
there returns the register, whatever BUSY is (R43 to R47). CMD reads 0 (R34). While BUSY = 0, OUT_LEN, RESULT, KEY with
bits 31:8 as 0, DICT_LEN and FREQ[b] read what they hold (R48 to R52; BusyReadsAreFreeDraws has them while BUSY = 1). A
read changes nothing but the host's own record of it. -/
def Obligations.ReservedAndReadOnlyRegisters : Prop :=
  (∀ (s : State) (off : Nat) (v : Word), off % 4 = 0 →
    ((0x030 ≤ off ∧ off ≤ 0x3FC) ∨ (0x800 ≤ off ∧ off ≤ 0xFFC) →
      s.hostAccess { kind := .read, offset := off, width := .w32 } = s.logRead off .w32 0#32 ∧
      s.hostAccess { kind := .write, offset := off, width := .w32, data := v } = s) ∧
    ((0x020 ≤ off ∧ off ≤ 0x02C) ∨ (0x400 ≤ off ∧ off ≤ 0x7FC) →
      s.hostAccess { kind := .write, offset := off, width := .w32, data := v } = s)) ∧
  (∀ (s : State) (v : Word),
    s.hostAccess { kind := .write, offset := 0x00C, width := .w32, data := v } = { s with aAddr := v } ∧
    s.hostAccess { kind := .write, offset := 0x010, width := .w32, data := v } = { s with aLen := v } ∧
    s.hostAccess { kind := .write, offset := 0x014, width := .w32, data := v } = { s with bAddr := v } ∧
    s.hostAccess { kind := .write, offset := 0x018, width := .w32, data := v } = { s with bLen := v } ∧
    s.hostAccess { kind := .write, offset := 0x01C, width := .w32, data := v } = { s with dAddr := v }) ∧
  (∀ s : State, ∀ ov ∈ [(0x004, 0#32), (0x00C, s.aAddr), (0x010, s.aLen), (0x014, s.bAddr), (0x018, s.bLen),
      (0x01C, s.dAddr)],
    s.hostAccess { kind := .read, offset := ov.1, width := .w32 } = s.logRead ov.1 .w32 ov.2) ∧
  (∀ s : State, s.busy = false →
    (∀ ov ∈ [(0x020, s.outLen), (0x024, s.result), (0x028, BitVec.ofNat 32 s.key.toNat),
        (0x02C, BitVec.ofNat 32 s.dict.length)],
      s.hostAccess { kind := .read, offset := ov.1, width := .w32 } = s.logRead ov.1 .w32 ov.2) ∧
    ∀ b : Byte,
      s.hostAccess { kind := .read, offset := 0x400 + 4 * b.toNat, width := .w32 } =
        s.logRead (0x400 + 4 * b.toNat) .w32 (s.freq[b.toNat]'b.isLt))

/-- STATUS: its fields stand at the bits the rule's table gives and its reserved bits read 0, as a host read with
BUSY = 0 returns it; a host write of v clears OVERRUN when v[5] = 1 and has no other effect, also while BUSY = 1
(10_state.md R35). -/
def Obligations.StatusRegisterFieldsAndWrite : Prop :=
  RegName.status.offset = 0x008 ∧
  (∀ (busy done err dictValid found overrun : Bool) (e : BitVec 4),
    (statusWord busy done err dictValid found overrun e).toNat =
      busy.toNat + 2 * done.toNat + 4 * err.toNat + 8 * dictValid.toNat + 16 * found.toNat + 32 * overrun.toNat
        + 256 * e.toNat) ∧
  (∀ s : State, s.busy = false →
    s.hostAccess { kind := .read, offset := 0x008, width := .w32 } =
      s.logRead 0x008 .w32 (statusWord false s.done s.err s.dictValid s.found s.overrun s.errcode)) ∧
  ∀ (s : State) (v : Word),
    s.hostAccess { kind := .write, offset := 0x008, width := .w32, data := v } =
      if v.getLsbD 5 = true then { s with overrun := false } else s

/-- Unspecified reads are free draws: while BUSY = 1 OUT_LEN, RESULT, KEY, and while a DICTLOAD is in flight DICT_LEN
and every FREQ[b], read as the next draw, whatever it is; STATUS reads its defined fields with FOUND, and DICT_VALID
during a DICTLOAD, drawn; every other register reads its value (10_state.md R54). A host read of any of these open
registers returns that value and uses the draw up. That the draws come from a counter, and which bits of a draw serve
STATUS, is the model's choice (log 5). -/
def Obligations.BusyReadsAreFreeDraws : Prop :=
  ∀ (s : State) (L : Latch), s.latched = some L →
    (∀ r ∈ [RegName.outLen, .result, .key], s.regRead r = Config.freeWord s.draws) ∧
    s.regRead .status = statusWord true s.done s.err
      (if decode L.cmd = .ok .dictload then (Config.freeWord s.draws).getLsbD 3 else s.dictValid)
      ((Config.freeWord s.draws).getLsbD 4) s.overrun s.errcode ∧
    (∀ r ∈ [RegName.id, .cmd, .aAddr, .aLen, .bAddr, .bLen, .dAddr], s.regRead r = s.regValue r) ∧
    (∀ b : Byte,
      (decode L.cmd = .ok .dictload →
        s.regRead .dictLen = Config.freeWord s.draws ∧ s.regRead (.freq b) = Config.freeWord s.draws) ∧
      (decode L.cmd ≠ .ok .dictload →
        s.regRead .dictLen = BitVec.ofNat 32 s.dict.length ∧ s.regRead (.freq b) = s.freq[b.toNat]'b.isLt)) ∧
    (∀ r ∈ [RegName.outLen, .result, .key, .status],
      s.hostAccess { kind := .read, offset := r.offset, width := .w32 } =
        { s.logRead r.offset .w32 (s.regRead r) with draws := s.draws + 1 }) ∧
    (decode L.cmd = .ok .dictload → ∀ b : Byte, ∀ r ∈ [RegName.dictLen, .freq b],
      s.hostAccess { kind := .read, offset := r.offset, width := .w32 } =
        { s.logRead r.offset .w32 (s.regRead r) with draws := s.draws + 1 })

/-- No read has a side effect: a supported read changes nothing of the engine unless it records a model fault
(20_memory.md R89). -/
def Obligations.ReadsHaveNoSideEffect : Prop :=
  ∀ (s : State) (a : Access), a.kind = .read →
    ∃ (h : HostAgent) (n : Nat) (f : Option ModelFault),
      s.hostAccess a = { s with host := h, draws := n, modelFault := f } ∧ (f = s.modelFault ∨ h = s.host)

/-- A DMEM access while BUSY = 1, of any kind and width, is HostRace and has no other effect; an aligned 32-bit register
access then is no race (20_memory.md R97). That HostRace comes first where the access is also unsupported (R82) or reads
a byte with no value (R90) is the model's choice (log 9). -/
def Obligations.DmemAccessWhileBusyIsHostRace : Prop :=
  ∀ (s : State) (a : Access), s.busy = true →
    (0x10000 ≤ a.offset → a.offset < 0x10000 + s.cfg.dmemSize → s.hostAccess a = s.recordFault .hostRace) ∧
    (a.offset < 0x1000 → a.width = .w32 → a.offset % 4 = 0 → (s.hostAccess a).modelFault = s.modelFault)

/-- An access that R82 does not support is HostBusError and has no other effect: while BUSY = 0 at any offset, and while
BUSY = 1 at any offset outside the DMEM window, the register window and the unmapped offsets alike (inside the DMEM
window it is then HostRace; and HostBusError comes before UninitRead: the model's choices, log 9). A supported write
records no model fault while BUSY = 0, nor ever in the register window (20_memory.md R81, R82). -/
def Obligations.UnsupportedAccessIsHostBusError : Prop :=
  ∀ (s : State) (a : Access),
    (a.supported s.cfg = false →
      s.busy = false ∨ a.offset < 0x10000 ∨ 0x10000 + s.cfg.dmemSize ≤ a.offset →
      s.hostAccess a = s.recordFault .hostBusError) ∧
    (a.supported s.cfg = true → a.kind = .write → s.busy = false ∨ a.offset < 0x1000 →
      (s.hostAccess a).modelFault = s.modelFault)

/-- Host accesses to DMEM while BUSY = 0: an 8-bit write stores data bits 7:0 at exactly its address, and an 8-bit read
of a byte with a value returns it (10_state.md R60, 20_memory.md R82; the 32-bit data of an 8-bit transaction is the
model's form, log 15). Byte order is little-endian: in a 32-bit host write, in a 32-bit host read, and in the hit count
of a BREAKHITS record (20_memory.md R83). -/
def Obligations.LittleEndianEverywhere : Prop :=
  (∀ (s : State) (a : Nat) (v : Word), s.busy = false → a < s.cfg.dmemSize →
    ∃ m, s.hostAccess { kind := .write, offset := 0x10000 + a, width := .w8, data := v } = { s with dmem := m } ∧
      ∀ x, m.read x = if x = a then some (v.extractLsb' 0 8) else s.dmem.read x) ∧
  (∀ (s : State) (a : Nat) (b : Byte), s.busy = false → a < s.cfg.dmemSize → s.dmem.read a = some b →
    s.hostAccess { kind := .read, offset := 0x10000 + a, width := .w8 } =
      s.logRead (0x10000 + a) .w8 (BitVec.ofNat 32 b.toNat)) ∧
  (∀ (s : State) (a : Nat) (v : Word), s.busy = false → a % 4 = 0 → a + 4 ≤ s.cfg.dmemSize →
    ∃ m, s.hostAccess { kind := .write, offset := 0x10000 + a, width := .w32, data := v } = { s with dmem := m } ∧
      ∀ x, m.read x =
        if x = a then some (v.extractLsb' 0 8)
        else if x = a + 1 then some (v.extractLsb' 8 8)
        else if x = a + 2 then some (v.extractLsb' 16 8)
        else if x = a + 3 then some (v.extractLsb' 24 8)
        else s.dmem.read x) ∧
  (∀ (s : State) (a : Nat) (b0 b1 b2 b3 : Byte), s.busy = false → a % 4 = 0 → a + 4 ≤ s.cfg.dmemSize →
    s.dmem.read a = some b0 → s.dmem.read (a + 1) = some b1 → s.dmem.read (a + 2) = some b2 →
    s.dmem.read (a + 3) = some b3 →
    s.hostAccess { kind := .read, offset := 0x10000 + a, width := .w32 } =
      s.logRead (0x10000 + a) .w32
        (BitVec.ofNat 32 (b0.toNat + 256 * b1.toNat + 65536 * b2.toNat + 16777216 * b3.toNat))) ∧
  (∀ (k : Byte) (h : Nat), h < 2 ^ 32 →
    hitRecord (k, h) = [k, BitVec.ofNat 8 h, BitVec.ofNat 8 (h / 256), BitVec.ofNat 8 (h / 65536),
      BitVec.ofNat 8 (h / 16777216)])

/-- A host read of a DMEM byte that holds no value is UninitRead and has no other effect (20_memory.md R90). -/
def Obligations.HostReadOfValuelessByteIsUninitRead : Prop :=
  ∀ (s : State) (a : Nat), s.busy = false → s.dmem.read a = none →
    (a < s.cfg.dmemSize →
      s.hostAccess { kind := .read, offset := 0x10000 + a, width := .w8 } = s.recordFault .uninitRead) ∧
    (∀ b, b % 4 = 0 → b ≤ a → a < b + 4 → b + 4 ≤ s.cfg.dmemSize →
      s.hostAccess { kind := .read, offset := 0x10000 + b, width := .w32 } = s.recordFault .uninitRead)

/-- BIT.NZ: on the host's turn, with `$name` the last value read from the register, the host continues at the label when
the bit is 1 and at the next statement when it is 0; nothing else changes but the turn (30_encoding.md R116). -/
def Obligations.HostBranchFollowsLastRead : Prop :=
  ∀ (s : State) (r : RegName) (bit j : Nat) (l : Label) (v : Word), s.nextTurn = .host →
    s.host.current = some (.bitNZ r bit l) → s.host.lastRead r = some v →
    labelIndex l s.host.program = some j →
    step s = .next { s with turns := s.turns.tail
                            host := { s.host with pos := if v.getLsbD bit = true then j else s.host.pos + 1 } }

/-- RUN expands to the five operand writes, the CMD write and one polling read of STATUS (30_encoding.md R117, R118). -/
def Obligations.RunExpandsToSixWritesAndAPoll : Prop :=
  ∀ (n : Nat) (i : Instr) (aa al ba bl da : Word),
    transactionsOf (expandStmt n (.run i aa al ba bl da)) =
      [{ kind := .write, offset := 0x00C, width := .w32, data := aa },
       { kind := .write, offset := 0x010, width := .w32, data := al },
       { kind := .write, offset := 0x014, width := .w32, data := ba },
       { kind := .write, offset := 0x018, width := .w32, data := bl },
       { kind := .write, offset := 0x01C, width := .w32, data := da },
       { kind := .write, offset := 0x004, width := .w32, data := encode i },
       { kind := .read, offset := 0x008, width := .w32 }]

/-! ## Reset -/

/-- A hard reset: every register at its reset value, DICT without values, no latched record, the recorded model fault
kept, and with no command in flight DMEM unchanged (70_reset_and_hazards.md R383). -/
def Obligations.HardResetRegisters : Prop :=
  ∀ s : State, s.nextTurn = .reset →
    ∃ t, step s = .next t ∧
      t = { State.reset with
            cfg := s.cfg
            dmem := t.dmem
            modelFault := s.modelFault
            host := s.host
            turns := s.turns.tail
            draws := s.draws } ∧
      (s.busy = false → t.dmem = s.dmem)

/-- A hard reset during a command: the command is abandoned, and exactly the bytes of
[L.D_ADDR, min(DMEM_SIZE, L.D_ADDR + Bound(L))) lose their values, Bound(L) as the rule's table gives it (70_reset_and_hazards.md R384). -/
def Obligations.HardResetLosesDestinationBytes : Prop :=
  (∀ (s : State) (L : Latch), s.nextTurn = .reset → s.latched = some L →
    ∃ t, step s = .next t ∧ t.busy = false ∧
      ∀ x, t.dmem.read x =
        if L.dAddr.toNat ≤ x ∧ x < min s.cfg.dmemSize (L.dAddr.toNat + latchBound L) then none else s.dmem.read x) ∧
  ∀ L : Latch,
    (decode L.cmd = .ok .hexenc → latchBound L = 2 * L.aLen.toNat) ∧
    (decode L.cmd = .ok .hexdec → latchBound L = L.aLen.toNat / 2) ∧
    (decode L.cmd ∈ [.ok .xor, .ok .repxor, .ok .breakscore] → latchBound L = L.aLen.toNat) ∧
    (decode L.cmd = .ok .b64enc → latchBound L = 4 * ((L.aLen.toNat + 2) / 3)) ∧
    (decode L.cmd = .ok .b64dec → latchBound L = 3 * (L.aLen.toNat / 4)) ∧
    (decode L.cmd = .ok .breakhits → latchBound L = 1280) ∧
    (decode L.cmd ∉ [.ok .hexenc, .ok .hexdec, .ok .xor, .ok .repxor, .ok .breakscore, .ok .b64enc, .ok .b64dec,
      .ok .breakhits] → latchBound L = 0)

/-- Bound(L) covers what the command writes: a command that completes leaves OUT_LEN at most Bound(L)
(70_reset_and_hazards.md R384, "the largest output the command could produce"). -/
def Obligations.OutputNeverExceedsBound : Prop :=
  ∀ (i : Instr) (s t : State) (L : Latch), s.Running L → decode L.cmd = .ok i → exec i s = .next t →
    t.busy = false → t.outLen.toNat ≤ latchBound L

/-! ## The functions of the commands -/

/-- BitDifference is symmetric, 0 exactly on equal bytes, and satisfies the triangle inequality (41_byte_symbol.md
R180). -/
def Obligations.BitDifferenceIsAMetric : Prop :=
  ∀ a b c : Byte,
    bitDifference a b = bitDifference b a ∧ (bitDifference a b = 0 ↔ a = b) ∧
    bitDifference a c ≤ bitDifference a b + bitDifference b c

/-- HEXDEC of HEXENC's output gives the bytes back (42_hex_sequence.md R192). -/
def Obligations.HexDecodeOfHexEncode : Prop := ∀ a : Bytes, hexBytes (hexText a) = some a

/-- HEXENC of HEXDEC's output of a legal text is the text in lower case, and the text itself exactly when it has no
upper-case digit (42_hex_sequence.md R196). -/
def Obligations.HexEncodeOfHexDecodeIsLowerCase : Prop :=
  ∀ t out : Bytes, hexBytes t = some out →
    hexText out = t.map (fun c => if 0x41 ≤ c.toNat ∧ c.toNat ≤ 0x46 then c + 0x20#8 else c) ∧
    (hexText out = t ↔ ∀ c ∈ t, ¬ (0x41 ≤ c.toNat ∧ c.toNat ≤ 0x46))

/-- XOR's algebra on operands of equal length (42_hex_sequence.md R201). -/
def Obligations.XorAlgebra : Prop :=
  ∀ a b : Bytes, a.length = b.length →
    xorBytes a b = xorBytes b a ∧ xorBytes a a = List.replicate a.length 0#8 ∧ xorBytes (xorBytes a b) b = a

/-- REPXOR's laws: twice with the same key gives the data back, with a key of the data's length it is XOR, and with a
one-byte key it is the searches' candidate (42_hex_sequence.md R207). -/
def Obligations.RepxorLaws : Prop :=
  ∀ a k : Bytes, k ≠ [] →
    repXor (repXor a k) k = a ∧ (k.length = a.length → repXor a k = xorBytes a k) ∧
    ∀ x : Byte, repXor a [x] = candidate a x

/-- HAMMING's laws (42_hex_sequence.md R211). -/
def Obligations.HammingLaws : Prop :=
  ∀ a b : Bytes, a.length = b.length →
    hammingDistance a a = 0 ∧ hammingDistance a b = hammingDistance b a ∧
    hammingDistance a b = ((xorBytes a b).map popcount8).sum

/-- B64ENC's length and padding (43_base64.md R234): a multiple of 4; two, one or no trailing '=' for a 1-byte tail, a
2-byte tail, an aligned input; '=' nowhere but in the last group. -/
def Obligations.B64PaddingShape : Prop :=
  ∀ a : Bytes,
    (b64Text a).length = 4 * ((a.length + 2) / 3) ∧
    (a.length % 3 = 1 → trailingPads (b64Text a) = 2) ∧
    (a.length % 3 = 2 → trailingPads (b64Text a) = 1) ∧
    (a.length % 3 = 0 → trailingPads (b64Text a) = 0) ∧
    ∀ i, (b64Text a)[i]? = some 0x3D#8 → (b64Text a).length ≤ i + 2

/-- B64DEC of B64ENC's output gives the bytes back, and B64ENC of B64DEC's output of a text gives the text exactly when
its discarded bits are 0 (43_base64.md R239). -/
def Obligations.B64RoundTrips : Prop :=
  (∀ b : Bytes, b64Bytes (b64Text b) = some b) ∧
  ∀ (t : Bytes) (vals : List Nat) (p : Nat), b64Parse t = some (vals, p) →
    (b64Text (b64Decode vals p) = t ↔
      (p = 1 → vals.getLastD 0 % 4 = 0) ∧ (p = 2 → vals.getLastD 0 % 16 = 0))

/-- FREQ's table: entry b is the sum over the words, which for b other than newline is the number of its occurrences in
the dictionary, and is 0 for newline (44_frequency.md R262). -/
def Obligations.FreqTableCountsOccurrences : Prop :=
  ∀ (d : Bytes) (b : Byte),
    ((freqTable d)[b.toNat]'b.isLt) = BitVec.ofNat 32 ((wordsOf d).map (fun w => w.count b)).sum ∧
    ((wordsOf d).map (fun w => w.count b)).sum = if b = 0x0A#8 then 0 else d.count b

/-- The dictionary's words are the runs between newlines, and a text's tokens the runs between the six bytes of WS_SET
(44_frequency.md R261, R265, R266). The runs between separators are the non-empty maximal ones, in order: none is empty,
none holds a separator, together they are the text without its separators, a separator ends a run, and a text with no
separator is one run. -/
def Obligations.RunsAreMaximal : Prop :=
  (∀ d : Bytes, wordsOf d = runs (fun c => decide (c = 0x0A#8)) d) ∧
  (∀ t : Bytes, tokensOf t =
    runs (fun c => decide (c.toNat ∈ [0x09, 0x0A, 0x0B, 0x0C, 0x0D, 0x20])) t) ∧
  ∀ (sep : Byte → Bool) (s t : Bytes) (b : Byte),
    (∀ w ∈ runs sep s, w ≠ [] ∧ ∀ c ∈ w, sep c = false) ∧
    (runs sep s).flatten = s.filter (fun c => !sep c) ∧
    (sep b = true → runs sep (s ++ b :: t) = runs sep s ++ runs sep t) ∧
    (s ≠ [] → (∀ c ∈ s, sep c = false) → runs sep s = [s])

/-- The selection of BREAKSCORE: the result is the surviving candidate of greatest score, the greatest key among equals,
and only with a score above 1 (45_xor_breaker.md R294). -/
def Obligations.BreakscoreSelectsGreatestKeyOfBestScore : Prop :=
  ∀ (freq : Vector (BitVec 32) 256) (c : Bytes) (b : Best),
    reportedBest freq c = some b ↔
      survives (candidate c b.key) = true ∧ b.plain = candidate c b.key ∧
      b.score = letterScore freq (candidate c b.key) ∧ 1 < b.score ∧
      ∀ k : Byte, survives (candidate c k) = true →
        letterScore freq (candidate c k) < b.score ∨
        (letterScore freq (candidate c k) = b.score ∧ k.toNat ≤ b.key.toNat)

/-- BREAKHITS's records: a key is in them exactly when it qualifies, with its hit count, and the keys are strictly
increasing, so each is there at most once (45_xor_breaker.md R303). -/
def Obligations.BreakhitsRecordsExactlyQualifyingKeys : Prop :=
  ∀ (d c : Bytes),
    (∀ (k : Byte) (h : Nat), (k, h) ∈ searchByHits d c ↔
      (survives (candidate c k) = true ∧ c.length / 10 < wordHitCount d (candidate c k)) ∧
        h = wordHitCount d (candidate c k)) ∧
    ((searchByHits d c).map (fun kh => kh.1.toNat)).Pairwise (· < ·)

/-- WORDHITS's result is at most the number of tokens, and at most (len + 1) div 2 (44_frequency.md R269,
41_byte_symbol.md R187). -/
def Obligations.WordHitsBounded : Prop :=
  ∀ d t : Bytes, wordHitCount d t ≤ (tokensOf t).length ∧ wordHitCount d t ≤ (t.length + 1) / 2

/-- No stored value can overflow 32 bits: the bounds of 41_byte_symbol.md R187, row by row, in states that meet the
invariant. FREQ's row is about the exact count, which the stored counter then equals; the word hits are WORDHITS's
result and the hit count of every BREAKHITS record. -/
def Obligations.StoredValuesFit32Bits : Prop :=
  ∀ s : State, s.Inv →
    (∀ a b : Bytes, a.length ≤ s.cfg.dmemSize → hammingDistance a b ≤ 8 * s.cfg.dmemSize) ∧
    8 * s.cfg.dmemSize ≤ 2 ^ 19 ∧
    (∀ b : Byte, freqCount s.dict b ≤ s.cfg.dictCap ∧ freqAt s.freq b = freqCount s.dict b) ∧
    s.cfg.dictCap < 2 ^ 32 ∧
    (wordsOf s.dict).length ≤ s.cfg.dictCap ∧
    (∀ t : Bytes, t.length ≤ s.cfg.dmemSize → letterScore s.freq t ≤ s.cfg.dmemSize * s.cfg.dictCap) ∧
    s.cfg.dmemSize * s.cfg.dictCap < 2 ^ 32 ∧
    (∀ t : Bytes, t.length ≤ s.cfg.dmemSize →
      wordHitCount s.dict t ≤ (t.length + 1) / 2 ∧ (t.length + 1) / 2 ≤ s.cfg.dmemSize) ∧
    (∀ c : Bytes, c.length ≤ s.cfg.dmemSize → ∀ kh ∈ searchByHits s.dict c, kh.2 ≤ (c.length + 1) / 2) ∧
    (∀ c : Bytes, (searchByHits s.dict c).length ≤ 256)
end

