-- ==== Sys2Proof/Laws/Memory.lean ====
section
/-! SUPPORT. The laws of DMEM: read after write, ranges, and that every operation keeps the canonical form. -/

namespace Sys2Proof.Machine

@[simp] theorem Memory.read_nil (a : Nat) : Memory.read [] a = none := rfl

@[simp] theorem Memory.wf_nil : Memory.wf [] = true := rfl

theorem Memory.read_write (m : Memory) (a x : Nat) (b : Byte) :
    (m.write a b).read x = if x = a then some b else m.read x := by
  induction m with
  | nil => simp [Memory.write, Memory.read, eq_comm]
  | cons c m ih =>
    obtain ⟨k, v⟩ := c
    simp only [Memory.write]
    split
    · by_cases hx : x = a
      · simp [Memory.read, hx]
      · simp [Memory.read, hx, Ne.symm hx]
    · split
      · rename_i hk
        subst hk
        by_cases hx : x = a
        · simp [Memory.read, hx]
        · simp [Memory.read, hx, Ne.symm hx]
      · by_cases hk : k = x
        · subst hk
          have : ¬ k = a := fun h => by omega
          simp [Memory.read, this]
        · simp [Memory.read, hk, ih]

/-- A read after the write of a byte string: its bytes inside the range, the old contents outside. -/
theorem Memory.read_writeBytes (m : Memory) (a x : Nat) (bs : Bytes) :
    (m.writeBytes a bs).read x = if a ≤ x ∧ x < a + bs.length then bs[x - a]? else m.read x := by
  induction bs generalizing m a with
  | nil =>
    have : ¬ (a ≤ x ∧ x < a + ([] : Bytes).length) := by simp only [List.length_nil]; omega
    rw [if_neg this, Memory.writeBytes]
  | cons b bs ih =>
    rw [Memory.writeBytes, ih, Memory.read_write]
    by_cases h1 : x = a
    · subst h1; simp
    · by_cases h2 : a + 1 ≤ x ∧ x < a + 1 + bs.length
      · have e : x - a = (x - (a + 1)) + 1 := by omega
        have h3 : a ≤ x ∧ x < a + (b :: bs).length := by simp only [List.length_cons]; omega
        rw [if_pos h2, if_pos h3, e, List.getElem?_cons_succ]
      · have h3 : ¬ (a ≤ x ∧ x < a + (b :: bs).length) := by simp only [List.length_cons]; omega
        rw [if_neg h2, if_neg h3, if_neg h1]

/-- What reading a range answers. -/
theorem Memory.readBytes_eq_some (m : Memory) (a n : Nat) (bs : Bytes) :
    m.readBytes a n = some bs ↔ bs.length = n ∧ ∀ i, i < n → m.read (a + i) = bs[i]? := by
  induction n generalizing a bs with
  | zero => simp [Memory.readBytes, eq_comm (a := ([] : Bytes))]
  | succ n ih =>
    have key : ∀ (b : Byte) (t : Bytes), m.read a = some b → m.readBytes (a + 1) n = some t →
        (∀ i, i < n + 1 → m.read (a + i) = (b :: t)[i]?) := by
      intro b t hb ht i hi
      cases i with
      | zero => simpa using hb
      | succ i =>
        have := ((ih (a + 1) t).1 ht).2 i (by omega)
        rw [List.getElem?_cons_succ, ← this]; congr 1; omega
    constructor
    · intro h
      rw [Memory.readBytes] at h
      split at h
      · rename_i b t hb ht
        cases h
        exact ⟨by simpa using ((ih (a + 1) t).1 ht).1, key b t hb ht⟩
      · cases h
    · rintro ⟨hl, h⟩
      cases bs with
      | nil => simp at hl
      | cons b t =>
        have hb : m.read a = some b := by simpa using h 0 (by omega)
        have ht : m.readBytes (a + 1) n = some t := (ih (a + 1) t).2 ⟨by simpa using hl, fun i hi => by
          have := h (i + 1) (by omega)
          rw [List.getElem?_cons_succ] at this
          rw [← this]; congr 1; omega⟩
        rw [Memory.readBytes, hb, ht]

theorem Memory.readBytes_eq_none (m : Memory) (a n : Nat) :
    m.readBytes a n = none ↔ ∃ i, i < n ∧ m.read (a + i) = none := by
  induction n generalizing a with
  | zero => simp [Memory.readBytes]
  | succ n ih =>
    constructor
    · intro h
      cases hb : m.read a with
      | none => exact ⟨0, by omega, by simpa using hb⟩
      | some b =>
        cases ht : m.readBytes (a + 1) n with
        | none =>
          obtain ⟨i, hi, hr⟩ := (ih (a + 1)).1 ht
          exact ⟨i + 1, by omega, by rw [← hr]; congr 1; omega⟩
        | some t => rw [Memory.readBytes, hb, ht] at h; cases h
    · rintro ⟨i, hi, hr⟩
      cases i with
      | zero => rw [Memory.readBytes, show m.read a = none from hr]
      | succ i =>
        have : m.readBytes (a + 1) n = none := (ih (a + 1)).2 ⟨i, by omega, by rw [← hr]; congr 1; omega⟩
        rw [Memory.readBytes, this]; cases m.read a <;> rfl

theorem Memory.read_forget (m : Memory) (lo hi x : Nat) :
    (m.forget lo hi).read x = if lo ≤ x ∧ x < hi then none else m.read x := by
  induction m with
  | nil => simp [Memory.forget]
  | cons c m ih =>
    obtain ⟨k, v⟩ := c
    have e : Memory.forget ((k, v) :: m) lo hi
        = if lo ≤ k ∧ k < hi then Memory.forget m lo hi else (k, v) :: Memory.forget m lo hi := by
      by_cases h : lo ≤ k ∧ k < hi
      · simp [Memory.forget, h]
      · rw [if_neg h, Memory.forget, List.filter_cons, if_pos]
        · rfl
        · simp only [Bool.not_eq_true', Bool.and_eq_false_iff, decide_eq_false_iff_not]; tauto
    rw [e]
    by_cases h : lo ≤ k ∧ k < hi
    · rw [if_pos h, ih]
      by_cases hx : lo ≤ x ∧ x < hi
      · simp [hx]
      · have : k ≠ x := fun hk => hx (hk ▸ h)
        simp [hx, Memory.read, this]
    · rw [if_neg h, Memory.read, Memory.read, ih]
      by_cases hk : k = x
      · subst hk; simp [h]
      · simp [hk]

/-! ## The canonical form -/

/-- The canonical form as a statement about all pairs. -/
theorem Memory.wf_iff (m : Memory) : m.wf = true ↔ m.Pairwise (fun c d => c.1 < d.1) := by
  induction m with
  | nil => simp
  | cons c m ih =>
    cases m with
    | nil => simp [Memory.wf]
    | cons d m =>
      rw [Memory.wf, Bool.and_eq_true, ih, decide_eq_true_eq]
      constructor
      · rintro ⟨h1, h2⟩
        refine List.pairwise_cons.2 ⟨fun e he => ?_, h2⟩
        rcases List.mem_cons.1 he with rfl | he
        · exact h1
        · exact lt_trans h1 ((List.pairwise_cons.1 h2).1 e he)
      · intro h
        obtain ⟨h1, h2⟩ := List.pairwise_cons.1 h
        exact ⟨h1 d (by simp), h2⟩

theorem Memory.mem_write {m : Memory} {a : Nat} {b : Byte} {c : Host.Cell} (h : c ∈ m.write a b) :
    c = (a, b) ∨ c ∈ m := by
  induction m with
  | nil => simpa [Memory.write] using h
  | cons d m ih =>
    obtain ⟨k, v⟩ := d
    rw [Memory.write] at h
    split at h
    · simpa using h
    · split at h
      · rcases List.mem_cons.1 h with h | h
        · exact .inl h
        · exact .inr (List.mem_cons_of_mem _ h)
      · rcases List.mem_cons.1 h with h | h
        · exact .inr (by simp [h])
        · rcases ih h with h | h
          · exact .inl h
          · exact .inr (List.mem_cons_of_mem _ h)

theorem Memory.wf_write {m : Memory} (h : m.wf = true) (a : Nat) (b : Byte) : (m.write a b).wf = true := by
  rw [Memory.wf_iff] at h ⊢
  induction m with
  | nil => simp [Memory.write]
  | cons d m ih =>
    obtain ⟨k, v⟩ := d
    obtain ⟨h1, h2⟩ := List.pairwise_cons.1 h
    rw [Memory.write]
    split
    · rename_i hlt
      refine List.pairwise_cons.2 ⟨fun e he => ?_, h⟩
      rcases List.mem_cons.1 he with rfl | he
      · exact hlt
      · exact lt_trans hlt (h1 e he)
    · split
      · rename_i hlt heq
        subst heq
        exact List.pairwise_cons.2 ⟨h1, h2⟩
      · refine List.pairwise_cons.2 ⟨fun e he => ?_, ih h2⟩
        rcases Memory.mem_write he with rfl | he
        · change k < a; omega
        · exact h1 e he

theorem Memory.wf_writeBytes {m : Memory} (h : m.wf = true) (a : Nat) (bs : Bytes) :
    (m.writeBytes a bs).wf = true := by
  induction bs generalizing m a with
  | nil => exact h
  | cons b bs ih => exact ih (Memory.wf_write h a b) (a + 1)

theorem Memory.wf_forget {m : Memory} (h : m.wf = true) (lo hi : Nat) : (m.forget lo hi).wf = true := by
  rw [Memory.wf_iff] at h ⊢
  exact h.filter _

theorem Memory.below_write {m : Memory} {n : Nat} (h : m.below n = true) {a : Nat} (ha : a < n) (b : Byte) :
    (m.write a b).below n = true := by
  rw [Memory.below, List.all_eq_true] at h ⊢
  intro c hc
  rcases Memory.mem_write hc with rfl | hc
  · simpa using ha
  · exact h c hc

theorem Memory.below_writeBytes {m : Memory} {n : Nat} (h : m.below n = true) {a : Nat} {bs : Bytes}
    (ha : a + bs.length ≤ n) : (m.writeBytes a bs).below n = true := by
  induction bs generalizing m a with
  | nil => exact h
  | cons b bs ih =>
    rw [List.length_cons] at ha
    exact ih (Memory.below_write h (by omega) b) (by omega)

theorem Memory.below_forget {m : Memory} {n : Nat} (h : m.below n = true) (lo hi : Nat) :
    (m.forget lo hi).below n = true := by
  rw [Memory.below, List.all_eq_true] at h ⊢
  intro c hc
  exact h c (List.mem_filter.1 hc).1

/-- The memory after reset has the canonical form. -/
theorem State.reset_dmem_wf : State.reset.dmem.wf = true := rfl

end Sys2Proof.Machine
end

