-- ==== Sys2Proof/Laws/State.lean ====
section
/-! SUPPORT. One lemma per field per named update of State, true by rfl or by cases on the update's flag. -/

namespace Sys2Proof.Machine

/-! ### clearIssueFlags -/

@[simp] theorem State.clearIssueFlags_cfg (s : State) : (s.clearIssueFlags).cfg = s.cfg := rfl
@[simp] theorem State.clearIssueFlags_aAddr (s : State) : (s.clearIssueFlags).aAddr = s.aAddr := rfl
@[simp] theorem State.clearIssueFlags_aLen (s : State) : (s.clearIssueFlags).aLen = s.aLen := rfl
@[simp] theorem State.clearIssueFlags_bAddr (s : State) : (s.clearIssueFlags).bAddr = s.bAddr := rfl
@[simp] theorem State.clearIssueFlags_bLen (s : State) : (s.clearIssueFlags).bLen = s.bLen := rfl
@[simp] theorem State.clearIssueFlags_dAddr (s : State) : (s.clearIssueFlags).dAddr = s.dAddr := rfl
@[simp] theorem State.clearIssueFlags_done (s : State) : (s.clearIssueFlags).done = false := rfl
@[simp] theorem State.clearIssueFlags_err (s : State) : (s.clearIssueFlags).err = false := rfl
@[simp] theorem State.clearIssueFlags_dictValid (s : State) : (s.clearIssueFlags).dictValid = s.dictValid := rfl
@[simp] theorem State.clearIssueFlags_found (s : State) : (s.clearIssueFlags).found = s.found := rfl
@[simp] theorem State.clearIssueFlags_overrun (s : State) : (s.clearIssueFlags).overrun = s.overrun := rfl
@[simp] theorem State.clearIssueFlags_errcode (s : State) : (s.clearIssueFlags).errcode = 0#4 := rfl
@[simp] theorem State.clearIssueFlags_outLen (s : State) : (s.clearIssueFlags).outLen = s.outLen := rfl
@[simp] theorem State.clearIssueFlags_result (s : State) : (s.clearIssueFlags).result = s.result := rfl
@[simp] theorem State.clearIssueFlags_key (s : State) : (s.clearIssueFlags).key = s.key := rfl
@[simp] theorem State.clearIssueFlags_dict (s : State) : (s.clearIssueFlags).dict = s.dict := rfl
@[simp] theorem State.clearIssueFlags_freq (s : State) : (s.clearIssueFlags).freq = s.freq := rfl
@[simp] theorem State.clearIssueFlags_latched (s : State) : (s.clearIssueFlags).latched = s.latched := rfl
@[simp] theorem State.clearIssueFlags_dmem (s : State) : (s.clearIssueFlags).dmem = s.dmem := rfl
@[simp] theorem State.clearIssueFlags_modelFault (s : State) : (s.clearIssueFlags).modelFault = s.modelFault := rfl
@[simp] theorem State.clearIssueFlags_host (s : State) : (s.clearIssueFlags).host = s.host := rfl
@[simp] theorem State.clearIssueFlags_turns (s : State) : (s.clearIssueFlags).turns = s.turns := rfl
@[simp] theorem State.clearIssueFlags_draws (s : State) : (s.clearIssueFlags).draws = s.draws := rfl

/-! ### markOk -/

@[simp] theorem State.markOk_cfg (s : State) : (s.markOk).cfg = s.cfg := rfl
@[simp] theorem State.markOk_aAddr (s : State) : (s.markOk).aAddr = s.aAddr := rfl
@[simp] theorem State.markOk_aLen (s : State) : (s.markOk).aLen = s.aLen := rfl
@[simp] theorem State.markOk_bAddr (s : State) : (s.markOk).bAddr = s.bAddr := rfl
@[simp] theorem State.markOk_bLen (s : State) : (s.markOk).bLen = s.bLen := rfl
@[simp] theorem State.markOk_dAddr (s : State) : (s.markOk).dAddr = s.dAddr := rfl
@[simp] theorem State.markOk_done (s : State) : (s.markOk).done = s.done := rfl
@[simp] theorem State.markOk_err (s : State) : (s.markOk).err = false := rfl
@[simp] theorem State.markOk_dictValid (s : State) : (s.markOk).dictValid = s.dictValid := rfl
@[simp] theorem State.markOk_found (s : State) : (s.markOk).found = s.found := rfl
@[simp] theorem State.markOk_overrun (s : State) : (s.markOk).overrun = s.overrun := rfl
@[simp] theorem State.markOk_errcode (s : State) : (s.markOk).errcode = 0#4 := rfl
@[simp] theorem State.markOk_outLen (s : State) : (s.markOk).outLen = s.outLen := rfl
@[simp] theorem State.markOk_result (s : State) : (s.markOk).result = s.result := rfl
@[simp] theorem State.markOk_key (s : State) : (s.markOk).key = s.key := rfl
@[simp] theorem State.markOk_dict (s : State) : (s.markOk).dict = s.dict := rfl
@[simp] theorem State.markOk_freq (s : State) : (s.markOk).freq = s.freq := rfl
@[simp] theorem State.markOk_latched (s : State) : (s.markOk).latched = s.latched := rfl
@[simp] theorem State.markOk_dmem (s : State) : (s.markOk).dmem = s.dmem := rfl
@[simp] theorem State.markOk_modelFault (s : State) : (s.markOk).modelFault = s.modelFault := rfl
@[simp] theorem State.markOk_host (s : State) : (s.markOk).host = s.host := rfl
@[simp] theorem State.markOk_turns (s : State) : (s.markOk).turns = s.turns := rfl
@[simp] theorem State.markOk_draws (s : State) : (s.markOk).draws = s.draws := rfl

/-! ### markErr -/

@[simp] theorem State.markErr_cfg (s : State) (c : ErrCode) : (s.markErr c).cfg = s.cfg := rfl
@[simp] theorem State.markErr_aAddr (s : State) (c : ErrCode) : (s.markErr c).aAddr = s.aAddr := rfl
@[simp] theorem State.markErr_aLen (s : State) (c : ErrCode) : (s.markErr c).aLen = s.aLen := rfl
@[simp] theorem State.markErr_bAddr (s : State) (c : ErrCode) : (s.markErr c).bAddr = s.bAddr := rfl
@[simp] theorem State.markErr_bLen (s : State) (c : ErrCode) : (s.markErr c).bLen = s.bLen := rfl
@[simp] theorem State.markErr_dAddr (s : State) (c : ErrCode) : (s.markErr c).dAddr = s.dAddr := rfl
@[simp] theorem State.markErr_done (s : State) (c : ErrCode) : (s.markErr c).done = s.done := rfl
@[simp] theorem State.markErr_err (s : State) (c : ErrCode) : (s.markErr c).err = true := rfl
@[simp] theorem State.markErr_dictValid (s : State) (c : ErrCode) : (s.markErr c).dictValid = s.dictValid := rfl
@[simp] theorem State.markErr_found (s : State) (c : ErrCode) : (s.markErr c).found = s.found := rfl
@[simp] theorem State.markErr_overrun (s : State) (c : ErrCode) : (s.markErr c).overrun = s.overrun := rfl
@[simp] theorem State.markErr_errcode (s : State) (c : ErrCode) : (s.markErr c).errcode = c.code := rfl
@[simp] theorem State.markErr_outLen (s : State) (c : ErrCode) : (s.markErr c).outLen = s.outLen := rfl
@[simp] theorem State.markErr_result (s : State) (c : ErrCode) : (s.markErr c).result = s.result := rfl
@[simp] theorem State.markErr_key (s : State) (c : ErrCode) : (s.markErr c).key = s.key := rfl
@[simp] theorem State.markErr_dict (s : State) (c : ErrCode) : (s.markErr c).dict = s.dict := rfl
@[simp] theorem State.markErr_freq (s : State) (c : ErrCode) : (s.markErr c).freq = s.freq := rfl
@[simp] theorem State.markErr_latched (s : State) (c : ErrCode) : (s.markErr c).latched = s.latched := rfl
@[simp] theorem State.markErr_dmem (s : State) (c : ErrCode) : (s.markErr c).dmem = s.dmem := rfl
@[simp] theorem State.markErr_modelFault (s : State) (c : ErrCode) : (s.markErr c).modelFault = s.modelFault := rfl
@[simp] theorem State.markErr_host (s : State) (c : ErrCode) : (s.markErr c).host = s.host := rfl
@[simp] theorem State.markErr_turns (s : State) (c : ErrCode) : (s.markErr c).turns = s.turns := rfl
@[simp] theorem State.markErr_draws (s : State) (c : ErrCode) : (s.markErr c).draws = s.draws := rfl

/-! ### finish -/

@[simp] theorem State.finish_cfg (s : State) : (s.finish).cfg = s.cfg := rfl
@[simp] theorem State.finish_aAddr (s : State) : (s.finish).aAddr = s.aAddr := rfl
@[simp] theorem State.finish_aLen (s : State) : (s.finish).aLen = s.aLen := rfl
@[simp] theorem State.finish_bAddr (s : State) : (s.finish).bAddr = s.bAddr := rfl
@[simp] theorem State.finish_bLen (s : State) : (s.finish).bLen = s.bLen := rfl
@[simp] theorem State.finish_dAddr (s : State) : (s.finish).dAddr = s.dAddr := rfl
@[simp] theorem State.finish_done (s : State) : (s.finish).done = true := rfl
@[simp] theorem State.finish_err (s : State) : (s.finish).err = s.err := rfl
@[simp] theorem State.finish_dictValid (s : State) : (s.finish).dictValid = s.dictValid := rfl
@[simp] theorem State.finish_found (s : State) : (s.finish).found = s.found := rfl
@[simp] theorem State.finish_overrun (s : State) : (s.finish).overrun = s.overrun := rfl
@[simp] theorem State.finish_errcode (s : State) : (s.finish).errcode = s.errcode := rfl
@[simp] theorem State.finish_outLen (s : State) : (s.finish).outLen = s.outLen := rfl
@[simp] theorem State.finish_result (s : State) : (s.finish).result = s.result := rfl
@[simp] theorem State.finish_key (s : State) : (s.finish).key = s.key := rfl
@[simp] theorem State.finish_dict (s : State) : (s.finish).dict = s.dict := rfl
@[simp] theorem State.finish_freq (s : State) : (s.finish).freq = s.freq := rfl
@[simp] theorem State.finish_latched (s : State) : (s.finish).latched = none := rfl
@[simp] theorem State.finish_dmem (s : State) : (s.finish).dmem = s.dmem := rfl
@[simp] theorem State.finish_modelFault (s : State) : (s.finish).modelFault = s.modelFault := rfl
@[simp] theorem State.finish_host (s : State) : (s.finish).host = s.host := rfl
@[simp] theorem State.finish_turns (s : State) : (s.finish).turns = s.turns := rfl
@[simp] theorem State.finish_draws (s : State) : (s.finish).draws = s.draws := rfl

/-! ### issue -/

@[simp] theorem State.issue_cfg (s : State) (v : Word) : (s.issue v).cfg = s.cfg := rfl
@[simp] theorem State.issue_aAddr (s : State) (v : Word) : (s.issue v).aAddr = s.aAddr := rfl
@[simp] theorem State.issue_aLen (s : State) (v : Word) : (s.issue v).aLen = s.aLen := rfl
@[simp] theorem State.issue_bAddr (s : State) (v : Word) : (s.issue v).bAddr = s.bAddr := rfl
@[simp] theorem State.issue_bLen (s : State) (v : Word) : (s.issue v).bLen = s.bLen := rfl
@[simp] theorem State.issue_dAddr (s : State) (v : Word) : (s.issue v).dAddr = s.dAddr := rfl
@[simp] theorem State.issue_done (s : State) (v : Word) : (s.issue v).done = false := rfl
@[simp] theorem State.issue_err (s : State) (v : Word) : (s.issue v).err = false := rfl
@[simp] theorem State.issue_dictValid (s : State) (v : Word) : (s.issue v).dictValid = s.dictValid := rfl
@[simp] theorem State.issue_found (s : State) (v : Word) : (s.issue v).found = s.found := rfl
@[simp] theorem State.issue_overrun (s : State) (v : Word) : (s.issue v).overrun = s.overrun := rfl
@[simp] theorem State.issue_errcode (s : State) (v : Word) : (s.issue v).errcode = 0#4 := rfl
@[simp] theorem State.issue_outLen (s : State) (v : Word) : (s.issue v).outLen = s.outLen := rfl
@[simp] theorem State.issue_result (s : State) (v : Word) : (s.issue v).result = s.result := rfl
@[simp] theorem State.issue_key (s : State) (v : Word) : (s.issue v).key = s.key := rfl
@[simp] theorem State.issue_dict (s : State) (v : Word) : (s.issue v).dict = s.dict := rfl
@[simp] theorem State.issue_freq (s : State) (v : Word) : (s.issue v).freq = s.freq := rfl
@[simp] theorem State.issue_latched (s : State) (v : Word) : (s.issue v).latched = some (s.latchOf v) := rfl
@[simp] theorem State.issue_dmem (s : State) (v : Word) : (s.issue v).dmem = s.dmem := rfl
@[simp] theorem State.issue_modelFault (s : State) (v : Word) : (s.issue v).modelFault = s.modelFault := rfl
@[simp] theorem State.issue_host (s : State) (v : Word) : (s.issue v).host = s.host := rfl
@[simp] theorem State.issue_turns (s : State) (v : Word) : (s.issue v).turns = s.turns := rfl
@[simp] theorem State.issue_draws (s : State) (v : Word) : (s.issue v).draws = s.draws := rfl

/-! ### recordFault -/

@[simp] theorem State.recordFault_cfg (s : State) (f : ModelFault) : (s.recordFault f).cfg = s.cfg := rfl
@[simp] theorem State.recordFault_aAddr (s : State) (f : ModelFault) : (s.recordFault f).aAddr = s.aAddr := rfl
@[simp] theorem State.recordFault_aLen (s : State) (f : ModelFault) : (s.recordFault f).aLen = s.aLen := rfl
@[simp] theorem State.recordFault_bAddr (s : State) (f : ModelFault) : (s.recordFault f).bAddr = s.bAddr := rfl
@[simp] theorem State.recordFault_bLen (s : State) (f : ModelFault) : (s.recordFault f).bLen = s.bLen := rfl
@[simp] theorem State.recordFault_dAddr (s : State) (f : ModelFault) : (s.recordFault f).dAddr = s.dAddr := rfl
@[simp] theorem State.recordFault_done (s : State) (f : ModelFault) : (s.recordFault f).done = s.done := rfl
@[simp] theorem State.recordFault_err (s : State) (f : ModelFault) : (s.recordFault f).err = s.err := rfl
@[simp] theorem State.recordFault_dictValid (s : State) (f : ModelFault) : (s.recordFault f).dictValid = s.dictValid := rfl
@[simp] theorem State.recordFault_found (s : State) (f : ModelFault) : (s.recordFault f).found = s.found := rfl
@[simp] theorem State.recordFault_overrun (s : State) (f : ModelFault) : (s.recordFault f).overrun = s.overrun := rfl
@[simp] theorem State.recordFault_errcode (s : State) (f : ModelFault) : (s.recordFault f).errcode = s.errcode := rfl
@[simp] theorem State.recordFault_outLen (s : State) (f : ModelFault) : (s.recordFault f).outLen = s.outLen := rfl
@[simp] theorem State.recordFault_result (s : State) (f : ModelFault) : (s.recordFault f).result = s.result := rfl
@[simp] theorem State.recordFault_key (s : State) (f : ModelFault) : (s.recordFault f).key = s.key := rfl
@[simp] theorem State.recordFault_dict (s : State) (f : ModelFault) : (s.recordFault f).dict = s.dict := rfl
@[simp] theorem State.recordFault_freq (s : State) (f : ModelFault) : (s.recordFault f).freq = s.freq := rfl
@[simp] theorem State.recordFault_latched (s : State) (f : ModelFault) : (s.recordFault f).latched = s.latched := rfl
@[simp] theorem State.recordFault_dmem (s : State) (f : ModelFault) : (s.recordFault f).dmem = s.dmem := rfl
@[simp] theorem State.recordFault_host (s : State) (f : ModelFault) : (s.recordFault f).host = s.host := rfl
@[simp] theorem State.recordFault_turns (s : State) (f : ModelFault) : (s.recordFault f).turns = s.turns := rfl
@[simp] theorem State.recordFault_draws (s : State) (f : ModelFault) : (s.recordFault f).draws = s.draws := rfl

/-! ### setResults -/

@[simp] theorem State.setResults_cfg (s : State) (n r : Nat) (k : Byte) (b : Bool) : (s.setResults n r k b).cfg = s.cfg := rfl
@[simp] theorem State.setResults_aAddr (s : State) (n r : Nat) (k : Byte) (b : Bool) : (s.setResults n r k b).aAddr = s.aAddr := rfl
@[simp] theorem State.setResults_aLen (s : State) (n r : Nat) (k : Byte) (b : Bool) : (s.setResults n r k b).aLen = s.aLen := rfl
@[simp] theorem State.setResults_bAddr (s : State) (n r : Nat) (k : Byte) (b : Bool) : (s.setResults n r k b).bAddr = s.bAddr := rfl
@[simp] theorem State.setResults_bLen (s : State) (n r : Nat) (k : Byte) (b : Bool) : (s.setResults n r k b).bLen = s.bLen := rfl
@[simp] theorem State.setResults_dAddr (s : State) (n r : Nat) (k : Byte) (b : Bool) : (s.setResults n r k b).dAddr = s.dAddr := rfl
@[simp] theorem State.setResults_done (s : State) (n r : Nat) (k : Byte) (b : Bool) : (s.setResults n r k b).done = s.done := rfl
@[simp] theorem State.setResults_err (s : State) (n r : Nat) (k : Byte) (b : Bool) : (s.setResults n r k b).err = s.err := rfl
@[simp] theorem State.setResults_dictValid (s : State) (n r : Nat) (k : Byte) (b : Bool) : (s.setResults n r k b).dictValid = s.dictValid := rfl
@[simp] theorem State.setResults_found (s : State) (n r : Nat) (k : Byte) (b : Bool) : (s.setResults n r k b).found = b := rfl
@[simp] theorem State.setResults_overrun (s : State) (n r : Nat) (k : Byte) (b : Bool) : (s.setResults n r k b).overrun = s.overrun := rfl
@[simp] theorem State.setResults_errcode (s : State) (n r : Nat) (k : Byte) (b : Bool) : (s.setResults n r k b).errcode = s.errcode := rfl
@[simp] theorem State.setResults_outLen (s : State) (n r : Nat) (k : Byte) (b : Bool) : (s.setResults n r k b).outLen = BitVec.ofNat 32 n := rfl
@[simp] theorem State.setResults_result (s : State) (n r : Nat) (k : Byte) (b : Bool) : (s.setResults n r k b).result = BitVec.ofNat 32 r := rfl
@[simp] theorem State.setResults_key (s : State) (n r : Nat) (k : Byte) (b : Bool) : (s.setResults n r k b).key = k := rfl
@[simp] theorem State.setResults_dict (s : State) (n r : Nat) (k : Byte) (b : Bool) : (s.setResults n r k b).dict = s.dict := rfl
@[simp] theorem State.setResults_freq (s : State) (n r : Nat) (k : Byte) (b : Bool) : (s.setResults n r k b).freq = s.freq := rfl
@[simp] theorem State.setResults_latched (s : State) (n r : Nat) (k : Byte) (b : Bool) : (s.setResults n r k b).latched = s.latched := rfl
@[simp] theorem State.setResults_dmem (s : State) (n r : Nat) (k : Byte) (b : Bool) : (s.setResults n r k b).dmem = s.dmem := rfl
@[simp] theorem State.setResults_modelFault (s : State) (n r : Nat) (k : Byte) (b : Bool) : (s.setResults n r k b).modelFault = s.modelFault := rfl
@[simp] theorem State.setResults_host (s : State) (n r : Nat) (k : Byte) (b : Bool) : (s.setResults n r k b).host = s.host := rfl
@[simp] theorem State.setResults_turns (s : State) (n r : Nat) (k : Byte) (b : Bool) : (s.setResults n r k b).turns = s.turns := rfl
@[simp] theorem State.setResults_draws (s : State) (n r : Nat) (k : Byte) (b : Bool) : (s.setResults n r k b).draws = s.draws := rfl

/-! ### writeOut -/

@[simp] theorem State.writeOut_cfg (s : State) (d : Word) (o : Option Bytes) : (s.writeOut d o).cfg = s.cfg := by cases o <;> rfl
@[simp] theorem State.writeOut_aAddr (s : State) (d : Word) (o : Option Bytes) : (s.writeOut d o).aAddr = s.aAddr := by cases o <;> rfl
@[simp] theorem State.writeOut_aLen (s : State) (d : Word) (o : Option Bytes) : (s.writeOut d o).aLen = s.aLen := by cases o <;> rfl
@[simp] theorem State.writeOut_bAddr (s : State) (d : Word) (o : Option Bytes) : (s.writeOut d o).bAddr = s.bAddr := by cases o <;> rfl
@[simp] theorem State.writeOut_bLen (s : State) (d : Word) (o : Option Bytes) : (s.writeOut d o).bLen = s.bLen := by cases o <;> rfl
@[simp] theorem State.writeOut_dAddr (s : State) (d : Word) (o : Option Bytes) : (s.writeOut d o).dAddr = s.dAddr := by cases o <;> rfl
@[simp] theorem State.writeOut_done (s : State) (d : Word) (o : Option Bytes) : (s.writeOut d o).done = s.done := by cases o <;> rfl
@[simp] theorem State.writeOut_err (s : State) (d : Word) (o : Option Bytes) : (s.writeOut d o).err = s.err := by cases o <;> rfl
@[simp] theorem State.writeOut_dictValid (s : State) (d : Word) (o : Option Bytes) : (s.writeOut d o).dictValid = s.dictValid := by cases o <;> rfl
@[simp] theorem State.writeOut_found (s : State) (d : Word) (o : Option Bytes) : (s.writeOut d o).found = s.found := by cases o <;> rfl
@[simp] theorem State.writeOut_overrun (s : State) (d : Word) (o : Option Bytes) : (s.writeOut d o).overrun = s.overrun := by cases o <;> rfl
@[simp] theorem State.writeOut_errcode (s : State) (d : Word) (o : Option Bytes) : (s.writeOut d o).errcode = s.errcode := by cases o <;> rfl
@[simp] theorem State.writeOut_outLen (s : State) (d : Word) (o : Option Bytes) : (s.writeOut d o).outLen = s.outLen := by cases o <;> rfl
@[simp] theorem State.writeOut_result (s : State) (d : Word) (o : Option Bytes) : (s.writeOut d o).result = s.result := by cases o <;> rfl
@[simp] theorem State.writeOut_key (s : State) (d : Word) (o : Option Bytes) : (s.writeOut d o).key = s.key := by cases o <;> rfl
@[simp] theorem State.writeOut_dict (s : State) (d : Word) (o : Option Bytes) : (s.writeOut d o).dict = s.dict := by cases o <;> rfl
@[simp] theorem State.writeOut_freq (s : State) (d : Word) (o : Option Bytes) : (s.writeOut d o).freq = s.freq := by cases o <;> rfl
@[simp] theorem State.writeOut_latched (s : State) (d : Word) (o : Option Bytes) : (s.writeOut d o).latched = s.latched := by cases o <;> rfl
@[simp] theorem State.writeOut_modelFault (s : State) (d : Word) (o : Option Bytes) : (s.writeOut d o).modelFault = s.modelFault := by cases o <;> rfl
@[simp] theorem State.writeOut_host (s : State) (d : Word) (o : Option Bytes) : (s.writeOut d o).host = s.host := by cases o <;> rfl
@[simp] theorem State.writeOut_turns (s : State) (d : Word) (o : Option Bytes) : (s.writeOut d o).turns = s.turns := by cases o <;> rfl
@[simp] theorem State.writeOut_draws (s : State) (d : Word) (o : Option Bytes) : (s.writeOut d o).draws = s.draws := by cases o <;> rfl

/-! ### loadDict -/

@[simp] theorem State.loadDict_cfg (s : State) (o : Option Bytes) : (s.loadDict o).cfg = s.cfg := by cases o <;> rfl
@[simp] theorem State.loadDict_aAddr (s : State) (o : Option Bytes) : (s.loadDict o).aAddr = s.aAddr := by cases o <;> rfl
@[simp] theorem State.loadDict_aLen (s : State) (o : Option Bytes) : (s.loadDict o).aLen = s.aLen := by cases o <;> rfl
@[simp] theorem State.loadDict_bAddr (s : State) (o : Option Bytes) : (s.loadDict o).bAddr = s.bAddr := by cases o <;> rfl
@[simp] theorem State.loadDict_bLen (s : State) (o : Option Bytes) : (s.loadDict o).bLen = s.bLen := by cases o <;> rfl
@[simp] theorem State.loadDict_dAddr (s : State) (o : Option Bytes) : (s.loadDict o).dAddr = s.dAddr := by cases o <;> rfl
@[simp] theorem State.loadDict_done (s : State) (o : Option Bytes) : (s.loadDict o).done = s.done := by cases o <;> rfl
@[simp] theorem State.loadDict_err (s : State) (o : Option Bytes) : (s.loadDict o).err = s.err := by cases o <;> rfl
@[simp] theorem State.loadDict_found (s : State) (o : Option Bytes) : (s.loadDict o).found = s.found := by cases o <;> rfl
@[simp] theorem State.loadDict_overrun (s : State) (o : Option Bytes) : (s.loadDict o).overrun = s.overrun := by cases o <;> rfl
@[simp] theorem State.loadDict_errcode (s : State) (o : Option Bytes) : (s.loadDict o).errcode = s.errcode := by cases o <;> rfl
@[simp] theorem State.loadDict_outLen (s : State) (o : Option Bytes) : (s.loadDict o).outLen = s.outLen := by cases o <;> rfl
@[simp] theorem State.loadDict_result (s : State) (o : Option Bytes) : (s.loadDict o).result = s.result := by cases o <;> rfl
@[simp] theorem State.loadDict_key (s : State) (o : Option Bytes) : (s.loadDict o).key = s.key := by cases o <;> rfl
@[simp] theorem State.loadDict_latched (s : State) (o : Option Bytes) : (s.loadDict o).latched = s.latched := by cases o <;> rfl
@[simp] theorem State.loadDict_dmem (s : State) (o : Option Bytes) : (s.loadDict o).dmem = s.dmem := by cases o <;> rfl
@[simp] theorem State.loadDict_modelFault (s : State) (o : Option Bytes) : (s.loadDict o).modelFault = s.modelFault := by cases o <;> rfl
@[simp] theorem State.loadDict_host (s : State) (o : Option Bytes) : (s.loadDict o).host = s.host := by cases o <;> rfl
@[simp] theorem State.loadDict_turns (s : State) (o : Option Bytes) : (s.loadDict o).turns = s.turns := by cases o <;> rfl
@[simp] theorem State.loadDict_draws (s : State) (o : Option Bytes) : (s.loadDict o).draws = s.draws := by cases o <;> rfl

/-! ### resetRegs -/

@[simp] theorem State.resetRegs_cfg (s : State) : (s.resetRegs).cfg = s.cfg := rfl
@[simp] theorem State.resetRegs_aAddr (s : State) : (s.resetRegs).aAddr = 0#32 := rfl
@[simp] theorem State.resetRegs_aLen (s : State) : (s.resetRegs).aLen = 0#32 := rfl
@[simp] theorem State.resetRegs_bAddr (s : State) : (s.resetRegs).bAddr = 0#32 := rfl
@[simp] theorem State.resetRegs_bLen (s : State) : (s.resetRegs).bLen = 0#32 := rfl
@[simp] theorem State.resetRegs_dAddr (s : State) : (s.resetRegs).dAddr = 0#32 := rfl
@[simp] theorem State.resetRegs_done (s : State) : (s.resetRegs).done = false := rfl
@[simp] theorem State.resetRegs_err (s : State) : (s.resetRegs).err = false := rfl
@[simp] theorem State.resetRegs_dictValid (s : State) : (s.resetRegs).dictValid = false := rfl
@[simp] theorem State.resetRegs_found (s : State) : (s.resetRegs).found = false := rfl
@[simp] theorem State.resetRegs_overrun (s : State) : (s.resetRegs).overrun = false := rfl
@[simp] theorem State.resetRegs_errcode (s : State) : (s.resetRegs).errcode = 0#4 := rfl
@[simp] theorem State.resetRegs_outLen (s : State) : (s.resetRegs).outLen = 0#32 := rfl
@[simp] theorem State.resetRegs_result (s : State) : (s.resetRegs).result = 0#32 := rfl
@[simp] theorem State.resetRegs_key (s : State) : (s.resetRegs).key = 0#8 := rfl
@[simp] theorem State.resetRegs_dict (s : State) : (s.resetRegs).dict = [] := rfl
@[simp] theorem State.resetRegs_freq (s : State) : (s.resetRegs).freq = Vector.replicate 256 0#32 := rfl
@[simp] theorem State.resetRegs_latched (s : State) : (s.resetRegs).latched = none := rfl
@[simp] theorem State.resetRegs_dmem (s : State) : (s.resetRegs).dmem = s.dmem := rfl
@[simp] theorem State.resetRegs_modelFault (s : State) : (s.resetRegs).modelFault = s.modelFault := rfl
@[simp] theorem State.resetRegs_host (s : State) : (s.resetRegs).host = s.host := rfl
@[simp] theorem State.resetRegs_turns (s : State) : (s.resetRegs).turns = s.turns := rfl
@[simp] theorem State.resetRegs_draws (s : State) : (s.resetRegs).draws = s.draws := rfl

/-! ### hardReset -/

@[simp] theorem State.hardReset_cfg (s : State) : (s.hardReset).cfg = s.cfg := rfl
@[simp] theorem State.hardReset_aAddr (s : State) : (s.hardReset).aAddr = 0#32 := rfl
@[simp] theorem State.hardReset_aLen (s : State) : (s.hardReset).aLen = 0#32 := rfl
@[simp] theorem State.hardReset_bAddr (s : State) : (s.hardReset).bAddr = 0#32 := rfl
@[simp] theorem State.hardReset_bLen (s : State) : (s.hardReset).bLen = 0#32 := rfl
@[simp] theorem State.hardReset_dAddr (s : State) : (s.hardReset).dAddr = 0#32 := rfl
@[simp] theorem State.hardReset_done (s : State) : (s.hardReset).done = false := rfl
@[simp] theorem State.hardReset_err (s : State) : (s.hardReset).err = false := rfl
@[simp] theorem State.hardReset_dictValid (s : State) : (s.hardReset).dictValid = false := rfl
@[simp] theorem State.hardReset_found (s : State) : (s.hardReset).found = false := rfl
@[simp] theorem State.hardReset_overrun (s : State) : (s.hardReset).overrun = false := rfl
@[simp] theorem State.hardReset_errcode (s : State) : (s.hardReset).errcode = 0#4 := rfl
@[simp] theorem State.hardReset_outLen (s : State) : (s.hardReset).outLen = 0#32 := rfl
@[simp] theorem State.hardReset_result (s : State) : (s.hardReset).result = 0#32 := rfl
@[simp] theorem State.hardReset_key (s : State) : (s.hardReset).key = 0#8 := rfl
@[simp] theorem State.hardReset_dict (s : State) : (s.hardReset).dict = [] := rfl
@[simp] theorem State.hardReset_freq (s : State) : (s.hardReset).freq = Vector.replicate 256 0#32 := rfl
@[simp] theorem State.hardReset_latched (s : State) : (s.hardReset).latched = none := rfl
@[simp] theorem State.hardReset_dmem (s : State) : (s.hardReset).dmem = s.dmemAfterReset := rfl
@[simp] theorem State.hardReset_modelFault (s : State) : (s.hardReset).modelFault = s.modelFault := rfl
@[simp] theorem State.hardReset_host (s : State) : (s.hardReset).host = s.host := rfl
@[simp] theorem State.hardReset_turns (s : State) : (s.hardReset).turns = s.turns := rfl
@[simp] theorem State.hardReset_draws (s : State) : (s.hardReset).draws = s.draws := rfl

/-! ### powerOn -/

@[simp] theorem State.powerOn_cfg (s : State) : (s.powerOn).cfg = s.cfg := rfl
@[simp] theorem State.powerOn_aAddr (s : State) : (s.powerOn).aAddr = 0#32 := rfl
@[simp] theorem State.powerOn_aLen (s : State) : (s.powerOn).aLen = 0#32 := rfl
@[simp] theorem State.powerOn_bAddr (s : State) : (s.powerOn).bAddr = 0#32 := rfl
@[simp] theorem State.powerOn_bLen (s : State) : (s.powerOn).bLen = 0#32 := rfl
@[simp] theorem State.powerOn_dAddr (s : State) : (s.powerOn).dAddr = 0#32 := rfl
@[simp] theorem State.powerOn_done (s : State) : (s.powerOn).done = false := rfl
@[simp] theorem State.powerOn_err (s : State) : (s.powerOn).err = false := rfl
@[simp] theorem State.powerOn_dictValid (s : State) : (s.powerOn).dictValid = false := rfl
@[simp] theorem State.powerOn_found (s : State) : (s.powerOn).found = false := rfl
@[simp] theorem State.powerOn_overrun (s : State) : (s.powerOn).overrun = false := rfl
@[simp] theorem State.powerOn_errcode (s : State) : (s.powerOn).errcode = 0#4 := rfl
@[simp] theorem State.powerOn_outLen (s : State) : (s.powerOn).outLen = 0#32 := rfl
@[simp] theorem State.powerOn_result (s : State) : (s.powerOn).result = 0#32 := rfl
@[simp] theorem State.powerOn_key (s : State) : (s.powerOn).key = 0#8 := rfl
@[simp] theorem State.powerOn_dict (s : State) : (s.powerOn).dict = [] := rfl
@[simp] theorem State.powerOn_freq (s : State) : (s.powerOn).freq = Vector.replicate 256 0#32 := rfl
@[simp] theorem State.powerOn_latched (s : State) : (s.powerOn).latched = none := rfl
@[simp] theorem State.powerOn_dmem (s : State) : (s.powerOn).dmem = [] := rfl
@[simp] theorem State.powerOn_modelFault (s : State) : (s.powerOn).modelFault = s.modelFault := rfl
@[simp] theorem State.powerOn_host (s : State) : (s.powerOn).host = s.host := rfl
@[simp] theorem State.powerOn_turns (s : State) : (s.powerOn).turns = s.turns := rfl
@[simp] theorem State.powerOn_draws (s : State) : (s.powerOn).draws = s.draws := rfl

/-! ### takeDraw -/

@[simp] theorem State.takeDraw_cfg (s : State) (b : Bool) : (s.takeDraw b).cfg = s.cfg := by cases b <;> rfl
@[simp] theorem State.takeDraw_aAddr (s : State) (b : Bool) : (s.takeDraw b).aAddr = s.aAddr := by cases b <;> rfl
@[simp] theorem State.takeDraw_aLen (s : State) (b : Bool) : (s.takeDraw b).aLen = s.aLen := by cases b <;> rfl
@[simp] theorem State.takeDraw_bAddr (s : State) (b : Bool) : (s.takeDraw b).bAddr = s.bAddr := by cases b <;> rfl
@[simp] theorem State.takeDraw_bLen (s : State) (b : Bool) : (s.takeDraw b).bLen = s.bLen := by cases b <;> rfl
@[simp] theorem State.takeDraw_dAddr (s : State) (b : Bool) : (s.takeDraw b).dAddr = s.dAddr := by cases b <;> rfl
@[simp] theorem State.takeDraw_done (s : State) (b : Bool) : (s.takeDraw b).done = s.done := by cases b <;> rfl
@[simp] theorem State.takeDraw_err (s : State) (b : Bool) : (s.takeDraw b).err = s.err := by cases b <;> rfl
@[simp] theorem State.takeDraw_dictValid (s : State) (b : Bool) : (s.takeDraw b).dictValid = s.dictValid := by cases b <;> rfl
@[simp] theorem State.takeDraw_found (s : State) (b : Bool) : (s.takeDraw b).found = s.found := by cases b <;> rfl
@[simp] theorem State.takeDraw_overrun (s : State) (b : Bool) : (s.takeDraw b).overrun = s.overrun := by cases b <;> rfl
@[simp] theorem State.takeDraw_errcode (s : State) (b : Bool) : (s.takeDraw b).errcode = s.errcode := by cases b <;> rfl
@[simp] theorem State.takeDraw_outLen (s : State) (b : Bool) : (s.takeDraw b).outLen = s.outLen := by cases b <;> rfl
@[simp] theorem State.takeDraw_result (s : State) (b : Bool) : (s.takeDraw b).result = s.result := by cases b <;> rfl
@[simp] theorem State.takeDraw_key (s : State) (b : Bool) : (s.takeDraw b).key = s.key := by cases b <;> rfl
@[simp] theorem State.takeDraw_dict (s : State) (b : Bool) : (s.takeDraw b).dict = s.dict := by cases b <;> rfl
@[simp] theorem State.takeDraw_freq (s : State) (b : Bool) : (s.takeDraw b).freq = s.freq := by cases b <;> rfl
@[simp] theorem State.takeDraw_latched (s : State) (b : Bool) : (s.takeDraw b).latched = s.latched := by cases b <;> rfl
@[simp] theorem State.takeDraw_dmem (s : State) (b : Bool) : (s.takeDraw b).dmem = s.dmem := by cases b <;> rfl
@[simp] theorem State.takeDraw_modelFault (s : State) (b : Bool) : (s.takeDraw b).modelFault = s.modelFault := by cases b <;> rfl
@[simp] theorem State.takeDraw_host (s : State) (b : Bool) : (s.takeDraw b).host = s.host := by cases b <;> rfl
@[simp] theorem State.takeDraw_turns (s : State) (b : Bool) : (s.takeDraw b).turns = s.turns := by cases b <;> rfl
@[simp] theorem State.takeDraw_draws (s : State) (b : Bool) : (s.takeDraw b).draws = s.draws + b.toNat := by cases b <;> rfl

/-! ### logRead -/

@[simp] theorem State.logRead_cfg (s : State) (o : Nat) (w : AccessWidth) (v : Word) : (s.logRead o w v).cfg = s.cfg := rfl
@[simp] theorem State.logRead_aAddr (s : State) (o : Nat) (w : AccessWidth) (v : Word) : (s.logRead o w v).aAddr = s.aAddr := rfl
@[simp] theorem State.logRead_aLen (s : State) (o : Nat) (w : AccessWidth) (v : Word) : (s.logRead o w v).aLen = s.aLen := rfl
@[simp] theorem State.logRead_bAddr (s : State) (o : Nat) (w : AccessWidth) (v : Word) : (s.logRead o w v).bAddr = s.bAddr := rfl
@[simp] theorem State.logRead_bLen (s : State) (o : Nat) (w : AccessWidth) (v : Word) : (s.logRead o w v).bLen = s.bLen := rfl
@[simp] theorem State.logRead_dAddr (s : State) (o : Nat) (w : AccessWidth) (v : Word) : (s.logRead o w v).dAddr = s.dAddr := rfl
@[simp] theorem State.logRead_done (s : State) (o : Nat) (w : AccessWidth) (v : Word) : (s.logRead o w v).done = s.done := rfl
@[simp] theorem State.logRead_err (s : State) (o : Nat) (w : AccessWidth) (v : Word) : (s.logRead o w v).err = s.err := rfl
@[simp] theorem State.logRead_dictValid (s : State) (o : Nat) (w : AccessWidth) (v : Word) : (s.logRead o w v).dictValid = s.dictValid := rfl
@[simp] theorem State.logRead_found (s : State) (o : Nat) (w : AccessWidth) (v : Word) : (s.logRead o w v).found = s.found := rfl
@[simp] theorem State.logRead_overrun (s : State) (o : Nat) (w : AccessWidth) (v : Word) : (s.logRead o w v).overrun = s.overrun := rfl
@[simp] theorem State.logRead_errcode (s : State) (o : Nat) (w : AccessWidth) (v : Word) : (s.logRead o w v).errcode = s.errcode := rfl
@[simp] theorem State.logRead_outLen (s : State) (o : Nat) (w : AccessWidth) (v : Word) : (s.logRead o w v).outLen = s.outLen := rfl
@[simp] theorem State.logRead_result (s : State) (o : Nat) (w : AccessWidth) (v : Word) : (s.logRead o w v).result = s.result := rfl
@[simp] theorem State.logRead_key (s : State) (o : Nat) (w : AccessWidth) (v : Word) : (s.logRead o w v).key = s.key := rfl
@[simp] theorem State.logRead_dict (s : State) (o : Nat) (w : AccessWidth) (v : Word) : (s.logRead o w v).dict = s.dict := rfl
@[simp] theorem State.logRead_freq (s : State) (o : Nat) (w : AccessWidth) (v : Word) : (s.logRead o w v).freq = s.freq := rfl
@[simp] theorem State.logRead_latched (s : State) (o : Nat) (w : AccessWidth) (v : Word) : (s.logRead o w v).latched = s.latched := rfl
@[simp] theorem State.logRead_dmem (s : State) (o : Nat) (w : AccessWidth) (v : Word) : (s.logRead o w v).dmem = s.dmem := rfl
@[simp] theorem State.logRead_modelFault (s : State) (o : Nat) (w : AccessWidth) (v : Word) : (s.logRead o w v).modelFault = s.modelFault := rfl
@[simp] theorem State.logRead_turns (s : State) (o : Nat) (w : AccessWidth) (v : Word) : (s.logRead o w v).turns = s.turns := rfl
@[simp] theorem State.logRead_draws (s : State) (o : Nat) (w : AccessWidth) (v : Word) : (s.logRead o w v).draws = s.draws := rfl

/-! ### advance -/

@[simp] theorem State.advance_cfg (s : State) : (s.advance).cfg = s.cfg := rfl
@[simp] theorem State.advance_aAddr (s : State) : (s.advance).aAddr = s.aAddr := rfl
@[simp] theorem State.advance_aLen (s : State) : (s.advance).aLen = s.aLen := rfl
@[simp] theorem State.advance_bAddr (s : State) : (s.advance).bAddr = s.bAddr := rfl
@[simp] theorem State.advance_bLen (s : State) : (s.advance).bLen = s.bLen := rfl
@[simp] theorem State.advance_dAddr (s : State) : (s.advance).dAddr = s.dAddr := rfl
@[simp] theorem State.advance_done (s : State) : (s.advance).done = s.done := rfl
@[simp] theorem State.advance_err (s : State) : (s.advance).err = s.err := rfl
@[simp] theorem State.advance_dictValid (s : State) : (s.advance).dictValid = s.dictValid := rfl
@[simp] theorem State.advance_found (s : State) : (s.advance).found = s.found := rfl
@[simp] theorem State.advance_overrun (s : State) : (s.advance).overrun = s.overrun := rfl
@[simp] theorem State.advance_errcode (s : State) : (s.advance).errcode = s.errcode := rfl
@[simp] theorem State.advance_outLen (s : State) : (s.advance).outLen = s.outLen := rfl
@[simp] theorem State.advance_result (s : State) : (s.advance).result = s.result := rfl
@[simp] theorem State.advance_key (s : State) : (s.advance).key = s.key := rfl
@[simp] theorem State.advance_dict (s : State) : (s.advance).dict = s.dict := rfl
@[simp] theorem State.advance_freq (s : State) : (s.advance).freq = s.freq := rfl
@[simp] theorem State.advance_latched (s : State) : (s.advance).latched = s.latched := rfl
@[simp] theorem State.advance_dmem (s : State) : (s.advance).dmem = s.dmem := rfl
@[simp] theorem State.advance_modelFault (s : State) : (s.advance).modelFault = s.modelFault := rfl
@[simp] theorem State.advance_turns (s : State) : (s.advance).turns = s.turns := rfl
@[simp] theorem State.advance_draws (s : State) : (s.advance).draws = s.draws := rfl

/-! ### jumpTo -/

@[simp] theorem State.jumpTo_cfg (s : State) (j : Nat) : (s.jumpTo j).cfg = s.cfg := rfl
@[simp] theorem State.jumpTo_aAddr (s : State) (j : Nat) : (s.jumpTo j).aAddr = s.aAddr := rfl
@[simp] theorem State.jumpTo_aLen (s : State) (j : Nat) : (s.jumpTo j).aLen = s.aLen := rfl
@[simp] theorem State.jumpTo_bAddr (s : State) (j : Nat) : (s.jumpTo j).bAddr = s.bAddr := rfl
@[simp] theorem State.jumpTo_bLen (s : State) (j : Nat) : (s.jumpTo j).bLen = s.bLen := rfl
@[simp] theorem State.jumpTo_dAddr (s : State) (j : Nat) : (s.jumpTo j).dAddr = s.dAddr := rfl
@[simp] theorem State.jumpTo_done (s : State) (j : Nat) : (s.jumpTo j).done = s.done := rfl
@[simp] theorem State.jumpTo_err (s : State) (j : Nat) : (s.jumpTo j).err = s.err := rfl
@[simp] theorem State.jumpTo_dictValid (s : State) (j : Nat) : (s.jumpTo j).dictValid = s.dictValid := rfl
@[simp] theorem State.jumpTo_found (s : State) (j : Nat) : (s.jumpTo j).found = s.found := rfl
@[simp] theorem State.jumpTo_overrun (s : State) (j : Nat) : (s.jumpTo j).overrun = s.overrun := rfl
@[simp] theorem State.jumpTo_errcode (s : State) (j : Nat) : (s.jumpTo j).errcode = s.errcode := rfl
@[simp] theorem State.jumpTo_outLen (s : State) (j : Nat) : (s.jumpTo j).outLen = s.outLen := rfl
@[simp] theorem State.jumpTo_result (s : State) (j : Nat) : (s.jumpTo j).result = s.result := rfl
@[simp] theorem State.jumpTo_key (s : State) (j : Nat) : (s.jumpTo j).key = s.key := rfl
@[simp] theorem State.jumpTo_dict (s : State) (j : Nat) : (s.jumpTo j).dict = s.dict := rfl
@[simp] theorem State.jumpTo_freq (s : State) (j : Nat) : (s.jumpTo j).freq = s.freq := rfl
@[simp] theorem State.jumpTo_latched (s : State) (j : Nat) : (s.jumpTo j).latched = s.latched := rfl
@[simp] theorem State.jumpTo_dmem (s : State) (j : Nat) : (s.jumpTo j).dmem = s.dmem := rfl
@[simp] theorem State.jumpTo_modelFault (s : State) (j : Nat) : (s.jumpTo j).modelFault = s.modelFault := rfl
@[simp] theorem State.jumpTo_turns (s : State) (j : Nat) : (s.jumpTo j).turns = s.turns := rfl
@[simp] theorem State.jumpTo_draws (s : State) (j : Nat) : (s.jumpTo j).draws = s.draws := rfl

/-! ### popTurn -/

@[simp] theorem State.popTurn_cfg (s : State) : (s.popTurn).cfg = s.cfg := rfl
@[simp] theorem State.popTurn_aAddr (s : State) : (s.popTurn).aAddr = s.aAddr := rfl
@[simp] theorem State.popTurn_aLen (s : State) : (s.popTurn).aLen = s.aLen := rfl
@[simp] theorem State.popTurn_bAddr (s : State) : (s.popTurn).bAddr = s.bAddr := rfl
@[simp] theorem State.popTurn_bLen (s : State) : (s.popTurn).bLen = s.bLen := rfl
@[simp] theorem State.popTurn_dAddr (s : State) : (s.popTurn).dAddr = s.dAddr := rfl
@[simp] theorem State.popTurn_done (s : State) : (s.popTurn).done = s.done := rfl
@[simp] theorem State.popTurn_err (s : State) : (s.popTurn).err = s.err := rfl
@[simp] theorem State.popTurn_dictValid (s : State) : (s.popTurn).dictValid = s.dictValid := rfl
@[simp] theorem State.popTurn_found (s : State) : (s.popTurn).found = s.found := rfl
@[simp] theorem State.popTurn_overrun (s : State) : (s.popTurn).overrun = s.overrun := rfl
@[simp] theorem State.popTurn_errcode (s : State) : (s.popTurn).errcode = s.errcode := rfl
@[simp] theorem State.popTurn_outLen (s : State) : (s.popTurn).outLen = s.outLen := rfl
@[simp] theorem State.popTurn_result (s : State) : (s.popTurn).result = s.result := rfl
@[simp] theorem State.popTurn_key (s : State) : (s.popTurn).key = s.key := rfl
@[simp] theorem State.popTurn_dict (s : State) : (s.popTurn).dict = s.dict := rfl
@[simp] theorem State.popTurn_freq (s : State) : (s.popTurn).freq = s.freq := rfl
@[simp] theorem State.popTurn_latched (s : State) : (s.popTurn).latched = s.latched := rfl
@[simp] theorem State.popTurn_dmem (s : State) : (s.popTurn).dmem = s.dmem := rfl
@[simp] theorem State.popTurn_modelFault (s : State) : (s.popTurn).modelFault = s.modelFault := rfl
@[simp] theorem State.popTurn_host (s : State) : (s.popTurn).host = s.host := rfl
@[simp] theorem State.popTurn_turns (s : State) : (s.popTurn).turns = s.turns.tail := rfl
@[simp] theorem State.popTurn_draws (s : State) : (s.popTurn).draws = s.draws := rfl

end Sys2Proof.Machine
end

