-- ==== Sys2Proof/Laws/Ops.lean ====
section
/-! SUPPORT. What each shared operation can do, said once: the operand reads, the checks, the completion step, and the
host's moves. -/

namespace Sys2Proof.Machine

/-! ## Operands and checks -/

theorem readSource_ok {s : State} {addr len : Word} {bs : Bytes} (hi : s.Inside addr len.toNat)
    (hh : s.Holds addr len.toNat bs) : readSource s addr len = .ok bs := by
  have h := (Memory.readBytes_eq_some s.dmem addr.toNat len.toNat bs).2 hh
  simp [readSource, inRange, hi, h]

theorem readSource_hole {s : State} {addr len : Word} (hi : s.Inside addr len.toNat)
    (hh : s.HasHole addr len.toNat) : readSource s addr len = .error (.fault .uninitRead) := by
  have h := (Memory.readBytes_eq_none s.dmem addr.toNat len.toNat).2 hh
  simp [readSource, inRange, hi, h]

theorem readSource_outside {s : State} {addr len : Word} (hi : ¬ s.Inside addr len.toNat) :
    readSource s addr len = .error (.err .addressRange) := by
  simp [readSource, inRange, hi]

/-- All that reading a source range can answer. -/
theorem readSource_cases (s : State) (addr len : Word) :
    (∃ bs, s.Inside addr len.toNat ∧ s.Holds addr len.toNat bs ∧ readSource s addr len = .ok bs) ∨
    (s.Inside addr len.toNat ∧ s.HasHole addr len.toNat ∧ readSource s addr len = .error (.fault .uninitRead)) ∨
    (¬ s.Inside addr len.toNat ∧ readSource s addr len = .error (.err .addressRange)) := by
  by_cases hi : s.Inside addr len.toNat
  · cases h : s.dmem.readBytes addr.toNat len.toNat with
    | some bs =>
      have hh := (Memory.readBytes_eq_some _ _ _ _).1 h
      exact .inl ⟨bs, hi, hh, readSource_ok hi hh⟩
    | none =>
      have hh := (Memory.readBytes_eq_none _ _ _).1 h
      exact .inr (.inl ⟨hi, hh, readSource_hole hi hh⟩)
  · exact .inr (.inr ⟨hi, readSource_outside hi⟩)

theorem readSource_eq_ok {s : State} {addr len : Word} {bs : Bytes} (h : readSource s addr len = .ok bs) :
    s.Inside addr len.toNat ∧ s.Holds addr len.toNat bs := by
  rcases readSource_cases s addr len with ⟨bs', hi, hh, e⟩ | ⟨_, _, e⟩ | ⟨_, e⟩
  · rw [e] at h; cases h; exact ⟨hi, hh⟩
  · rw [e] at h; cases h
  · rw [e] at h; cases h

theorem checkDst_ok {s : State} {L : Latch} {n : Nat} (h : s.Inside L.dAddr n) : checkDst s L n = .ok () := by
  simp [checkDst, inRange, h]

theorem checkDst_outside {s : State} {L : Latch} {n : Nat} (h : ¬ s.Inside L.dAddr n) :
    checkDst s L n = .error (.err .addressRange) := by
  simp [checkDst, inRange, h]

theorem checkDst_eq_ok {s : State} {L : Latch} {n : Nat} {u : Unit} (h : checkDst s L n = .ok u) :
    s.Inside L.dAddr n := by
  by_cases hi : s.Inside L.dAddr n
  · exact hi
  · rw [checkDst_outside hi] at h; cases h

theorem requireDict_of_valid {s : State} (h : s.dictValid = true) : requireDict s = .ok () := by
  simp [requireDict, h]

theorem requireDict_of_not {s : State} (h : s.dictValid = false) : requireDict s = .error (.err .noDictionary) := by
  simp [requireDict, h]

theorem requireDict_eq_ok {s : State} {u : Unit} (h : requireDict s = .ok u) : s.dictValid = true := by
  cases hd : s.dictValid with
  | true => rfl
  | false => rw [requireDict_of_not hd] at h; cases h

@[simp] theorem raiseIf_true (c : ErrCode) : raiseIf true c = .error (.err c) := rfl

@[simp] theorem raiseIf_false (c : ErrCode) : raiseIf false c = .ok () := rfl

theorem raiseIf_eq_ok {b : Bool} {c : ErrCode} {u : Unit} (h : raiseIf b c = .ok u) : b = false := by
  cases b with
  | false => rfl
  | true => cases h

@[simp] theorem orRaise_some {α : Type} (v : α) (c : ErrCode) : orRaise (some v) c = .ok v := rfl

@[simp] theorem orRaise_none {α : Type} (c : ErrCode) : orRaise (none : Option α) c = .error (.err c) := rfl

theorem orRaise_eq_ok {α : Type} {x : Option α} {c : ErrCode} {v : α} (h : orRaise x c = .ok v) : x = some v := by
  cases x with
  | none => cases h
  | some w => cases h; rfl

/-! ## The command computation -/

@[simp] theorem Cmd.ok_bind {α β : Type} (x : α) (f : α → Cmd β) : ((Except.ok x : Cmd α) >>= f) = f x := rfl

@[simp] theorem Cmd.error_bind {α β : Type} (e : Stop) (f : α → Cmd β) :
    ((Except.error e : Cmd α) >>= f) = .error e := rfl

/-- A sequence that answers a value does so through a value of its first part. -/
theorem Cmd.bind_eq_ok {α β : Type} {x : Cmd α} {f : α → Cmd β} {b : β} (h : (x >>= f) = .ok b) :
    ∃ a, x = .ok a ∧ f a = .ok b := by
  cases x with
  | ok a => exact ⟨a, rfl, h⟩
  | error e => cases h

/-! ## Completion -/

/-- All that the completion step can do. -/
theorem State.complete_cases {s t : State} {body : State → Latch → Cmd Report} (h : s.complete body = .next t) :
    ∃ L, s.Running L ∧
      ((∃ r, body s L = .ok r ∧ t = (s.applyOk L r).finish) ∨
       (∃ c, body s L = .error (.err c) ∧ t = (s.applyErr c).finish) ∨
       (∃ f, body s L = .error (.fault f) ∧ t = s.recordFault f)) := by
  unfold State.complete at h
  split at h
  · cases h
  · rename_i hm
    split at h
    · cases h
    · rename_i L hL
      refine ⟨L, ⟨hm, hL⟩, ?_⟩
      split at h
      · cases h; exact .inl ⟨_, ‹_›, rfl⟩
      · cases h; exact .inr (.inl ⟨_, ‹_›, rfl⟩)
      · cases h; exact .inr (.inr ⟨_, ‹_›, rfl⟩)

theorem State.complete_running {s : State} {L : Latch} (body : State → Latch → Cmd Report) (h : s.Running L) :
    s.complete body =
      match body s L with
      | .ok r => .next (s.applyOk L r).finish
      | .error (.err c) => .next (s.applyErr c).finish
      | .error (.fault f) => .next (s.recordFault f) := by
  rcases hb : body s L with ⟨_ | _⟩ | _ <;> simp only [State.complete, h.1, h.2, hb]

theorem State.complete_of_ok {s : State} {L : Latch} {body : State → Latch → Cmd Report} {r : Report}
    (h : s.Running L) (hb : body s L = .ok r) : s.complete body = .next (s.applyOk L r).finish := by
  rw [State.complete_running body h, hb]

theorem State.complete_of_err {s : State} {L : Latch} {body : State → Latch → Cmd Report} {c : ErrCode}
    (h : s.Running L) (hb : body s L = .error (.err c)) : s.complete body = .next (s.failed c) := by
  rw [State.complete_running body h, hb]; rfl

theorem State.complete_of_fault {s : State} {L : Latch} {body : State → Latch → Cmd Report} {f : ModelFault}
    (h : s.Running L) (hb : body s L = .error (.fault f)) : s.complete body = .next (s.recordFault f) := by
  rw [State.complete_running body h, hb]

/-- A failed completion, field by field. -/
@[simp] theorem State.applyErr_finish (s : State) (c : ErrCode) : (s.applyErr c).finish = s.failed c := rfl

/-- A successful completion without a new dictionary, field by field. -/
theorem State.applyOk_finish (s : State) (L : Latch) (r : Report) (hr : r.reset = false) (hd : r.dict = none) :
    (s.applyOk L r).finish = s.succeeded L (r.out.getD []) r.result r.key r.found := by
  obtain ⟨out, result, key, found, dict, reset⟩ := r
  subst hr hd
  cases out <;> rfl

/-- A successful completion that loads a dictionary, field by field. -/
theorem State.applyOk_finish_dict (s : State) (L : Latch) (r : Report) (d : Bytes) (hr : r.reset = false)
    (hd : r.dict = some d) :
    (s.applyOk L r).finish =
      { s.succeeded L (r.out.getD []) r.result r.key r.found with dict := d, freq := freqTable d, dictValid := true } := by
  obtain ⟨out, result, key, found, dict, reset⟩ := r
  subst hr hd
  cases out <;> rfl

theorem State.applyOk_finish_reset (s : State) (L : Latch) (r : Report) (hr : r.reset = true) :
    (s.applyOk L r).finish = { s.resetRegs with done := true } := by
  simp [State.applyOk, hr, State.finish]

theorem State.recordFault_of_none {s : State} (h : s.modelFault = none) (f : ModelFault) :
    s.recordFault f = { s with modelFault := some f } := by
  simp [State.recordFault, h]

@[simp] theorem State.recordFault_modelFault_isSome (s : State) (f : ModelFault) :
    (s.recordFault f).modelFault.isSome = true := by
  cases h : s.modelFault <;> simp [State.recordFault, h]

/-! ## The schedule and the step -/

theorem step_of_engine {s : State} {L : Latch} {i : Instr} (ht : s.nextTurn = .engine) (hL : s.latched = some L)
    (hd : decode L.cmd = .ok i) : step s = exec i s.popTurn := by
  simp [step, ht, hL, hd]

theorem step_of_host {s : State} (ht : s.nextTurn = .host) : step s = s.popTurn.hostStep := by
  simp [step, ht]

/-- All that a step can be. -/
theorem step_cases (s : State) :
    (s.nextTurn = .host ∧ step s = s.popTurn.hostStep) ∨
    (s.nextTurn = .reset ∧ step s = .next s.popTurn.hardReset) ∨
    (s.nextTurn = .powerOn ∧ step s = .next s.popTurn.powerOn) ∨
    (s.nextTurn = .engine ∧ s.latched = none ∧ step s = .next s.popTurn) ∨
    (∃ L i, s.nextTurn = .engine ∧ s.latched = some L ∧ decode L.cmd = .ok i ∧ step s = exec i s.popTurn) ∨
    (∃ L e, s.nextTurn = .engine ∧ s.latched = some L ∧ decode L.cmd = .error e ∧ step s = execIllegal s.popTurn) := by
  unfold step
  cases ht : s.nextTurn with
  | host => exact .inl ⟨rfl, rfl⟩
  | reset => exact .inr (.inl ⟨rfl, rfl⟩)
  | powerOn => exact .inr (.inr (.inl ⟨rfl, rfl⟩))
  | engine =>
    cases hL : s.latched with
    | none => exact .inr (.inr (.inr (.inl ⟨rfl, rfl, rfl⟩)))
    | some L =>
      cases hd : decode L.cmd with
      | ok i => exact .inr (.inr (.inr (.inr (.inl ⟨L, i, rfl, rfl, hd, by simp [hd]⟩))))
      | error e => exact .inr (.inr (.inr (.inr (.inr ⟨L, e, rfl, rfl, hd, by simp [hd]⟩))))

/-! ## The host's moves -/

/-- All that a register write can do. -/
theorem State.writeReg_cases (s : State) (r : RegName) (v : Word) :
    (r = .cmd ∧ s.busy = false ∧ s.writeReg r v = s.issue v) ∨
    (r = .cmd ∧ s.busy = true ∧ s.writeReg r v = { s with overrun := true }) ∨
    (r = .status ∧ v.getLsbD 5 = true ∧ s.writeReg r v = { s with overrun := false }) ∨
    (r = .aAddr ∧ s.writeReg r v = { s with aAddr := v }) ∨
    (r = .aLen ∧ s.writeReg r v = { s with aLen := v }) ∨
    (r = .bAddr ∧ s.writeReg r v = { s with bAddr := v }) ∨
    (r = .bLen ∧ s.writeReg r v = { s with bLen := v }) ∨
    (r = .dAddr ∧ s.writeReg r v = { s with dAddr := v }) ∨
    s.writeReg r v = s := by
  cases r <;> simp [State.writeReg]
  · by_cases hb : s.busy = true <;> simp_all [State.writeCmd]
  · by_cases hv : v[5] = true <;> simp_all [State.writeStatus]

/-- All that one host transaction can do to the engine: nothing but a log entry and a draw, a model fault, a register
write, or a write inside DMEM while BUSY = 0. -/
theorem State.hostAccess_cases (s : State) (a : Access) :
    (∃ h n, s.hostAccess a = { s with host := h, draws := n } ∧ h.program = s.host.program ∧ h.pos = s.host.pos) ∨
    (∃ f, s.hostAccess a = s.recordFault f) ∨
    (∃ r v, s.hostAccess a = s.writeReg r v) ∨
    (∃ x bs, s.busy = false ∧ x + bs.length ≤ s.cfg.dmemSize ∧
      s.hostAccess a = { s with dmem := s.dmem.writeBytes x bs }) := by
  have self : ∃ h n, s = { s with host := h, draws := n } ∧ h.program = s.host.program ∧ h.pos = s.host.pos :=
    ⟨s.host, s.draws, rfl, rfl, rfl⟩
  have log : ∀ (o w v) (b : Bool), ∃ h n, (s.takeDraw b).logRead o w v = { s with host := h, draws := n } ∧
      h.program = s.host.program ∧ h.pos = s.host.pos := by
    intro o w v b
    cases b <;> exact ⟨_, _, rfl, rfl, rfl⟩
  unfold State.hostAccess
  split
  · unfold State.regWindow
    split
    · split
      · unfold State.hostRegRead
        split
        · exact .inl (log _ _ _ false)
        · exact .inl (log _ _ _ _)
      · unfold State.hostRegWrite
        split
        · exact .inl self
        · exact .inr (.inr (.inl ⟨_, _, rfl⟩))
    · exact .inr (.inl ⟨_, rfl⟩)
  · split
    · rename_i hwin
      unfold State.dmemWindow
      split
      · exact .inr (.inl ⟨_, rfl⟩)
      · rename_i hb
        have hb : s.busy = false := by simpa using hb
        split
        · unfold State.hostMemRead8
          split
          · exact .inl (log _ _ _ false)
          · exact .inr (.inl ⟨_, rfl⟩)
        · exact .inr (.inr (.inr ⟨a.offset - 0x10000, [a.data.extractLsb' 0 8], hb,
            by simp only [List.length_cons, List.length_nil]; omega, rfl⟩))
        · split
          · unfold State.hostMemRead32
            split
            · exact .inl (log _ _ _ false)
            · exact .inr (.inl ⟨_, rfl⟩)
          · exact .inr (.inl ⟨_, rfl⟩)
        · split
          · rename_i hal
            exact .inr (.inr (.inr ⟨_, _, hb, hal.2, rfl⟩))
          · exact .inr (.inl ⟨_, rfl⟩)
        · exact .inr (.inl ⟨_, rfl⟩)
    · exact .inr (.inl ⟨_, rfl⟩)

/-- All that the host's turn can do. -/
theorem State.hostStep_cases {s t : State} (h : s.hostStep = .next t) :
    (∃ a, s.host.current = some (.access a) ∧ t = (s.hostAccess a).advance) ∨
    (∃ hst n, t = { s with host := hst, draws := n } ∧ hst.program = s.host.program) := by
  unfold State.hostStep at h
  split at h
  · cases h; exact .inl ⟨_, ‹_›, rfl⟩
  · cases h; exact .inr ⟨_, _, rfl, rfl⟩
  · unfold State.hostBranch at h
    simp only at h
    split at h
    · split at h
      · cases h
        cases (s.host.lastRead _).isNone <;> exact .inr ⟨_, _, rfl, rfl⟩
      · cases h
    · cases h
      cases (s.host.lastRead _).isNone <;> exact .inr ⟨_, _, rfl, rfl⟩
  · cases h; exact .inr ⟨_, _, rfl, rfl⟩
  · split at h
    · cases h
    · cases h; exact .inr ⟨_, _, rfl, rfl⟩

end Sys2Proof.Machine
end

