-- ==== Sys2Proof/Laws/Bodies.lean ====
section
/-! SUPPORT. What each command's computation answers when it succeeds: the operands it read and the report it gives. -/

namespace Sys2Proof.Machine

theorem hexencBody_ok {s : State} {L : Latch} {r : Report} (h : hexencBody s L = .ok r) :
    ∃ a, srcA s L = .ok a ∧ s.Inside L.dAddr (2 * a.length) ∧ r = { out := some (hexText a) } := by
  obtain ⟨a, ha, h⟩ := Cmd.bind_eq_ok h
  obtain ⟨_, hd, h⟩ := Cmd.bind_eq_ok h
  cases h
  exact ⟨a, ha, checkDst_eq_ok hd, rfl⟩

theorem hexdecBody_ok {s : State} {L : Latch} {r : Report} (h : hexdecBody s L = .ok r) :
    ∃ t out, srcA s L = .ok t ∧ t.length % 2 = 0 ∧ hexBytes t = some out ∧ s.Inside L.dAddr (t.length / 2) ∧
      r = { out := some out } := by
  obtain ⟨t, ha, h⟩ := Cmd.bind_eq_ok h
  obtain ⟨_, he, h⟩ := Cmd.bind_eq_ok h
  obtain ⟨out, ho, h⟩ := Cmd.bind_eq_ok h
  obtain ⟨_, hd, h⟩ := Cmd.bind_eq_ok h
  cases h
  exact ⟨t, out, ha, by simpa using raiseIf_eq_ok he, orRaise_eq_ok ho, checkDst_eq_ok hd, rfl⟩

theorem xorBody_ok {s : State} {L : Latch} {r : Report} (h : xorBody s L = .ok r) :
    ∃ a b, srcA s L = .ok a ∧ srcB s L = .ok b ∧ a.length = b.length ∧ s.Inside L.dAddr a.length ∧
      r = { out := some (xorBytes a b) } := by
  obtain ⟨a, ha, h⟩ := Cmd.bind_eq_ok h
  obtain ⟨b, hb, h⟩ := Cmd.bind_eq_ok h
  obtain ⟨_, he, h⟩ := Cmd.bind_eq_ok h
  obtain ⟨_, hd, h⟩ := Cmd.bind_eq_ok h
  cases h
  exact ⟨a, b, ha, hb, by simpa using raiseIf_eq_ok he, checkDst_eq_ok hd, rfl⟩

theorem repxorBody_ok {s : State} {L : Latch} {r : Report} (h : repxorBody s L = .ok r) :
    ∃ a k, srcA s L = .ok a ∧ srcB s L = .ok k ∧ k.length ≠ 0 ∧ s.Inside L.dAddr a.length ∧
      r = { out := some (repXor a k) } := by
  obtain ⟨a, ha, h⟩ := Cmd.bind_eq_ok h
  obtain ⟨k, hk, h⟩ := Cmd.bind_eq_ok h
  obtain ⟨_, he, h⟩ := Cmd.bind_eq_ok h
  obtain ⟨_, hd, h⟩ := Cmd.bind_eq_ok h
  cases h
  exact ⟨a, k, ha, hk, by simpa using raiseIf_eq_ok he, checkDst_eq_ok hd, rfl⟩

theorem hammingBody_ok {s : State} {L : Latch} {r : Report} (h : hammingBody s L = .ok r) :
    ∃ a b, srcA s L = .ok a ∧ srcB s L = .ok b ∧ a.length = b.length ∧ r = { result := hammingDistance a b } := by
  obtain ⟨a, ha, h⟩ := Cmd.bind_eq_ok h
  obtain ⟨b, hb, h⟩ := Cmd.bind_eq_ok h
  obtain ⟨_, he, h⟩ := Cmd.bind_eq_ok h
  cases h
  exact ⟨a, b, ha, hb, by simpa using raiseIf_eq_ok he, rfl⟩

theorem b64encBody_ok {s : State} {L : Latch} {r : Report} (h : b64encBody s L = .ok r) :
    ∃ a, srcA s L = .ok a ∧ s.Inside L.dAddr (4 * ((a.length + 2) / 3)) ∧ r = { out := some (b64Text a) } := by
  obtain ⟨a, ha, h⟩ := Cmd.bind_eq_ok h
  obtain ⟨_, hd, h⟩ := Cmd.bind_eq_ok h
  cases h
  exact ⟨a, ha, checkDst_eq_ok hd, rfl⟩

theorem b64decBody_ok {s : State} {L : Latch} {r : Report} (h : b64decBody s L = .ok r) :
    ∃ t out, srcA s L = .ok t ∧ b64Bytes t = some out ∧ s.Inside L.dAddr out.length ∧ r = { out := some out } := by
  obtain ⟨t, ha, h⟩ := Cmd.bind_eq_ok h
  obtain ⟨out, ho, h⟩ := Cmd.bind_eq_ok h
  obtain ⟨_, hd, h⟩ := Cmd.bind_eq_ok h
  cases h
  exact ⟨t, out, ha, orRaise_eq_ok ho, checkDst_eq_ok hd, rfl⟩

theorem dictloadBody_ok {s : State} {L : Latch} {r : Report} (h : dictloadBody s L = .ok r) :
    ∃ d, s.dictValid = false ∧ srcA s L = .ok d ∧ d.length ≤ s.cfg.dictCap ∧
      r = { dict := some d, result := (wordsOf d).length } := by
  obtain ⟨_, hv, h⟩ := Cmd.bind_eq_ok h
  obtain ⟨d, ha, h⟩ := Cmd.bind_eq_ok h
  obtain ⟨_, hc, h⟩ := Cmd.bind_eq_ok h
  cases h
  exact ⟨d, raiseIf_eq_ok hv, ha, by simpa using raiseIf_eq_ok hc, rfl⟩

theorem wordhitsBody_ok {s : State} {L : Latch} {r : Report} (h : wordhitsBody s L = .ok r) :
    ∃ t, s.dictValid = true ∧ srcA s L = .ok t ∧ r = { result := wordHitCount s.dict t } := by
  obtain ⟨_, hv, h⟩ := Cmd.bind_eq_ok h
  obtain ⟨t, ha, h⟩ := Cmd.bind_eq_ok h
  cases h
  exact ⟨t, requireDict_eq_ok hv, ha, rfl⟩

theorem letterscoreBody_ok {s : State} {L : Latch} {r : Report} (h : letterscoreBody s L = .ok r) :
    ∃ t, s.dictValid = true ∧ srcA s L = .ok t ∧ r = { result := letterScore s.freq t } := by
  obtain ⟨_, hv, h⟩ := Cmd.bind_eq_ok h
  obtain ⟨t, ha, h⟩ := Cmd.bind_eq_ok h
  cases h
  exact ⟨t, requireDict_eq_ok hv, ha, rfl⟩

theorem breakscoreBody_ok {s : State} {L : Latch} {r : Report} (h : breakscoreBody s L = .ok r) :
    ∃ c, s.dictValid = true ∧ srcA s L = .ok c ∧
      ((reportedBest s.freq c = none ∧ r = {}) ∨
       (∃ b, reportedBest s.freq c = some b ∧ s.Inside L.dAddr c.length ∧
         r = { out := some b.plain, result := b.score, key := b.key, found := true })) := by
  obtain ⟨_, hv, h⟩ := Cmd.bind_eq_ok h
  obtain ⟨c, ha, h⟩ := Cmd.bind_eq_ok h
  refine ⟨c, requireDict_eq_ok hv, ha, ?_⟩
  split at h
  · cases h; exact .inl ⟨‹_›, rfl⟩
  · obtain ⟨_, hd, h⟩ := Cmd.bind_eq_ok h
    cases h
    exact .inr ⟨_, ‹_›, checkDst_eq_ok hd, rfl⟩

theorem breakhitsBody_ok {s : State} {L : Latch} {r : Report} (h : breakhitsBody s L = .ok r) :
    ∃ c, s.dictValid = true ∧ srcA s L = .ok c ∧ s.Inside L.dAddr (5 * (searchByHits s.dict c).length) ∧
      r = { out := some ((searchByHits s.dict c).flatMap hitRecord), result := (searchByHits s.dict c).length,
            found := decide (0 < (searchByHits s.dict c).length) } := by
  obtain ⟨_, hv, h⟩ := Cmd.bind_eq_ok h
  obtain ⟨c, ha, h⟩ := Cmd.bind_eq_ok h
  obtain ⟨_, hd, h⟩ := Cmd.bind_eq_ok h
  cases h
  exact ⟨c, requireDict_eq_ok hv, ha, checkDst_eq_ok hd, rfl⟩

end Sys2Proof.Machine
end

