-- ==== Sys2Proof/Laws/Exec.lean ====
section
/-! SUPPORT. Each arm of exec as the completion step on that command's computation. -/

namespace Sys2Proof.Machine

theorem exec_nop (s : State) : exec .nop s = s.complete nopBody := rfl

theorem exec_hexenc (s : State) : exec .hexenc s = s.complete hexencBody := rfl

theorem exec_hexdec (s : State) : exec .hexdec s = s.complete hexdecBody := rfl

theorem exec_xor (s : State) : exec .xor s = s.complete xorBody := rfl

theorem exec_repxor (s : State) : exec .repxor s = s.complete repxorBody := rfl

theorem exec_hamming (s : State) : exec .hamming s = s.complete hammingBody := rfl

theorem exec_b64enc (s : State) : exec .b64enc s = s.complete b64encBody := rfl

theorem exec_b64dec (s : State) : exec .b64dec s = s.complete b64decBody := rfl

theorem exec_dictload (s : State) : exec .dictload s = s.complete dictloadBody := rfl

theorem exec_wordhits (s : State) : exec .wordhits s = s.complete wordhitsBody := rfl

theorem exec_letterscore (s : State) : exec .letterscore s = s.complete letterscoreBody := rfl

theorem exec_breakscore (s : State) : exec .breakscore s = s.complete breakscoreBody := rfl

theorem exec_breakhits (s : State) : exec .breakhits s = s.complete breakhitsBody := rfl

theorem exec_reset (s : State) : exec .reset s = s.complete resetBody := rfl

/-- The computation of each command. -/
def bodyOf : Instr → State → Latch → Cmd Report
  | .nop => nopBody
  | .hexenc => hexencBody
  | .hexdec => hexdecBody
  | .xor => xorBody
  | .repxor => repxorBody
  | .hamming => hammingBody
  | .b64enc => b64encBody
  | .b64dec => b64decBody
  | .dictload => dictloadBody
  | .wordhits => wordhitsBody
  | .letterscore => letterscoreBody
  | .breakscore => breakscoreBody
  | .breakhits => breakhitsBody
  | .reset => resetBody

/-- exec of a command is the completion step on its computation. -/
theorem exec_eq_complete (i : Instr) (s : State) : exec i s = s.complete (bodyOf i) := by
  cases i <;> rfl

/-- Only RESET asks for a reset. -/
theorem bodyOf_reset {i : Instr} {s : State} {L : Latch} {r : Report} (hi : i ≠ .reset) (h : bodyOf i s L = .ok r) :
    r.reset = false := by
  cases i with
  | nop => cases h; rfl
  | hexenc => obtain ⟨_, _, _, rfl⟩ := hexencBody_ok h; rfl
  | hexdec => obtain ⟨_, _, _, _, _, _, rfl⟩ := hexdecBody_ok h; rfl
  | xor => obtain ⟨_, _, _, _, _, _, rfl⟩ := xorBody_ok h; rfl
  | repxor => obtain ⟨_, _, _, _, _, _, rfl⟩ := repxorBody_ok h; rfl
  | hamming => obtain ⟨_, _, _, _, _, rfl⟩ := hammingBody_ok h; rfl
  | b64enc => obtain ⟨_, _, _, rfl⟩ := b64encBody_ok h; rfl
  | b64dec => obtain ⟨_, _, _, _, _, rfl⟩ := b64decBody_ok h; rfl
  | dictload => obtain ⟨_, _, _, _, rfl⟩ := dictloadBody_ok h; rfl
  | wordhits => obtain ⟨_, _, _, rfl⟩ := wordhitsBody_ok h; rfl
  | letterscore => obtain ⟨_, _, _, rfl⟩ := letterscoreBody_ok h; rfl
  | breakscore => obtain ⟨_, _, _, ⟨_, rfl⟩ | ⟨_, _, _, rfl⟩⟩ := breakscoreBody_ok h <;> rfl
  | breakhits => obtain ⟨_, _, _, _, rfl⟩ := breakhitsBody_ok h; rfl
  | reset => exact absurd rfl hi

/-- Only DICTLOAD gives a dictionary: one within the capacity, and only while none is loaded. -/
theorem bodyOf_dict {i : Instr} {s : State} {L : Latch} {r : Report} (h : bodyOf i s L = .ok r) :
    r.dict = none ∨ (i = .dictload ∧ s.dictValid = false ∧ ∃ d, r.dict = some d ∧ d.length ≤ s.cfg.dictCap) := by
  cases i with
  | nop => cases h; exact .inl rfl
  | hexenc => obtain ⟨_, _, _, rfl⟩ := hexencBody_ok h; exact .inl rfl
  | hexdec => obtain ⟨_, _, _, _, _, _, rfl⟩ := hexdecBody_ok h; exact .inl rfl
  | xor => obtain ⟨_, _, _, _, _, _, rfl⟩ := xorBody_ok h; exact .inl rfl
  | repxor => obtain ⟨_, _, _, _, _, _, rfl⟩ := repxorBody_ok h; exact .inl rfl
  | hamming => obtain ⟨_, _, _, _, _, rfl⟩ := hammingBody_ok h; exact .inl rfl
  | b64enc => obtain ⟨_, _, _, rfl⟩ := b64encBody_ok h; exact .inl rfl
  | b64dec => obtain ⟨_, _, _, _, _, rfl⟩ := b64decBody_ok h; exact .inl rfl
  | dictload => obtain ⟨d, hv, _, hc, rfl⟩ := dictloadBody_ok h; exact .inr ⟨rfl, hv, d, rfl, hc⟩
  | wordhits => obtain ⟨_, _, _, rfl⟩ := wordhitsBody_ok h; exact .inl rfl
  | letterscore => obtain ⟨_, _, _, rfl⟩ := letterscoreBody_ok h; exact .inl rfl
  | breakscore => obtain ⟨_, _, _, ⟨_, rfl⟩ | ⟨_, _, _, rfl⟩⟩ := breakscoreBody_ok h <;> exact .inl rfl
  | breakhits => obtain ⟨_, _, _, _, rfl⟩ := breakhitsBody_ok h; exact .inl rfl
  | reset => cases h; exact .inl rfl

end Sys2Proof.Machine
end

