-- ==== Sys2Proof/Laws/HostPort.lean ====
section
/-! SUPPORT. What a supported host access is, window by window: the register window by register name, the DMEM window by
DMEM address (spec 20_memory.md R81, R82). -/

namespace Sys2Proof.Machine

/-! ## The register window -/

/-- Every register stands in the window at a 4-aligned offset. -/
theorem RegName.offset_bounds (r : RegName) : r.offset < 0x1000 ∧ r.offset % 4 = 0 := by
  cases r with
  | freq b => have := b.isLt; simp only [RegName.offset]; omega
  | _ => decide

/-- The register at a register's offset is that register. -/
@[simp] theorem regAt_offset (r : RegName) : regAt r.offset = some r := by
  cases r with
  | freq b =>
    have hb := b.isLt
    have h : (0x400 + 4 * b.toNat - 0x400) / 4 = b.toNat := by omega
    change regAt (0x400 + 4 * b.toNat) = some (.freq b)
    unfold regAt
    iterate 12 rw [if_neg (by omega)]
    rw [if_pos (by omega), h, BitVec.ofNat_toNat, BitVec.setWidth_eq]
  | _ => rfl

/-- No register stands at a reserved offset (10_state.md R53). -/
theorem regAt_reserved {off : Nat} (h : (0x030 ≤ off ∧ off ≤ 0x3FC) ∨ (0x800 ≤ off ∧ off ≤ 0xFFC)) :
    regAt off = none := by
  unfold regAt
  iterate 13 rw [if_neg (by omega)]

/-- A 32-bit aligned access in the window reads or writes the register at its offset. -/
theorem State.hostAccess_window (s : State) (k : AccessKind) (off : Nat) (v : Word) (ho : off < 0x1000)
    (ha : off % 4 = 0) :
    s.hostAccess { kind := k, offset := off, width := .w32, data := v } =
      match k with
      | .read => s.hostRegRead off
      | .write => s.hostRegWrite off v := by
  cases k <;> simp [State.hostAccess, State.regWindow, ho, ha]

/-- A host read at a register's offset returns `regRead` and takes a draw where R54 leaves the value open. -/
theorem State.hostAccess_read_reg (s : State) (r : RegName) (v : Word) :
    s.hostAccess { kind := .read, offset := r.offset, width := .w32, data := v } =
      (s.takeDraw (s.readIsFree r)).logRead r.offset .w32 (s.regRead r) := by
  rw [State.hostAccess_window _ _ _ _ r.offset_bounds.1 r.offset_bounds.2]
  simp only [State.hostRegRead, regAt_offset]

/-- A host write at a register's offset is `writeReg`. -/
theorem State.hostAccess_write_reg (s : State) (r : RegName) (v : Word) :
    s.hostAccess { kind := .write, offset := r.offset, width := .w32, data := v } = s.writeReg r v := by
  rw [State.hostAccess_window _ _ _ _ r.offset_bounds.1 r.offset_bounds.2]
  simp only [State.hostRegWrite, regAt_offset]

/-! ## The DMEM window -/

/-- An access at 0x10000 + a inside DMEM is the DMEM window's at address a. -/
theorem State.hostAccess_dmem (s : State) (k : AccessKind) (a : Nat) (w : AccessWidth) (v : Word)
    (h : a < s.cfg.dmemSize) :
    s.hostAccess { kind := k, offset := 0x10000 + a, width := w, data := v } =
      s.dmemWindow { kind := k, offset := 0x10000 + a, width := w, data := v } a := by
  have h1 : ¬ 0x10000 + a < 0x1000 := by omega
  have h2 : 0x10000 ≤ 0x10000 + a ∧ 0x10000 + a < 0x10000 + s.cfg.dmemSize := by omega
  have h3 : 0x10000 + a - 0x10000 = a := by omega
  unfold State.hostAccess
  simp only [h1, h2, h3, if_false, and_self, if_true]

end Sys2Proof.Machine
end

