-- ==== Sys2Proof/Laws/PerInstr.lean ====
section
/-! SUPPORT. Facts about every command as syntax, one lemma per constructor. -/

namespace Sys2Proof.Laws.EncodeAssigned

/-- The command's word has RSVD = 0 and is one of the words spec 30_encoding.md R114 does not call illegal. -/
def Statement (i : Instr) : Prop := rsvdField (encode i) = 0#24 ∧ commandWordWf (encode i) = true

theorem nop : Statement .nop := by unfold Statement; decide
theorem hexenc : Statement .hexenc := by unfold Statement; decide
theorem hexdec : Statement .hexdec := by unfold Statement; decide
theorem xor : Statement .xor := by unfold Statement; decide
theorem repxor : Statement .repxor := by unfold Statement; decide
theorem hamming : Statement .hamming := by unfold Statement; decide
theorem b64enc : Statement .b64enc := by unfold Statement; decide
theorem b64dec : Statement .b64dec := by unfold Statement; decide
theorem dictload : Statement .dictload := by unfold Statement; decide
theorem wordhits : Statement .wordhits := by unfold Statement; decide
theorem letterscore : Statement .letterscore := by unfold Statement; decide
theorem breakscore : Statement .breakscore := by unfold Statement; decide
theorem breakhits : Statement .breakhits := by unfold Statement; decide
theorem reset : Statement .reset := by unfold Statement; decide

end Sys2Proof.Laws.EncodeAssigned
end

