-- ==== Sys2Proof/Tests/Slice0.lean ====
section
/-! SUPPORT. Tests: ill-formed terms that WellFormed refuses, words written out from spec 30_encoding.md R112, vectors of
95_test_vectors.md on one step, and for every statement with hypotheses a state and operands that meet them. -/

namespace Sys2Proof.Tests

open Sys2Proof Sys2Proof.Machine

/-! ## Helpers -/

/-- Sixteen bytes of DMEM: "ab" at 0, "\nG" at 2, "QUE=" at 4, "AA==" at 12, and no value at 8 to 11. -/
def smallMem : Memory :=
  [(0, 0x61#8), (1, 0x62#8), (2, 0x0A#8), (3, 0x47#8), (4, 0x51#8), (5, 0x55#8), (6, 0x45#8), (7, 0x3D#8),
   (12, 0x41#8), (13, 0x41#8), (14, 0x3D#8), (15, 0x3D#8)]

/-- A latched command record from plain numbers. -/
def latch (i : Instr) (aa al ba bl da : Nat) : Latch :=
  { cmd := encode i, aAddr := BitVec.ofNat 32 aa, aLen := BitVec.ofNat 32 al, bAddr := BitVec.ofNat 32 ba
    bLen := BitVec.ofNat 32 bl, dAddr := BitVec.ofNat 32 da }

/-- A small machine (DMEM_SIZE 16, DICT_CAP 4) with a command in flight over smallMem. -/
def busyAt (L : Latch) : State :=
  { State.reset with cfg := { dmemSize := 16, dictCap := 4 }, dmem := smallMem, latched := some L }

/-- The same machine with nothing in flight. -/
def idle : State := { State.reset with cfg := { dmemSize := 16, dictCap := 4 }, dmem := smallMem }

/-- A machine with a dictionary d loaded and a command in flight over the bytes bs at 0. -/
def withDict (d : Bytes) (L : Latch) (bs : Bytes) : State :=
  { State.reset with
    cfg := { dmemSize := 16, dictCap := 16 }
    dmem := Memory.writeBytes [] 0 bs
    latched := some L
    dict := d
    freq := freqTable d
    dictValid := true }

/-- The machine with a host program, all its turns the host's. -/
def hosted (s : State) (p : List HostStmt) : State := { s with host := { program := p }, turns := [.host, .host] }

/-- A look at the next state of an outcome. -/
def look {α : Type} (f : State → α) : Host.Outcome State Fault Refusal → Option α
  | .next t => some (f t)
  | .fault _ => none
  | .refused _ => none

/-- STATUS of the next state of an outcome. -/
def statusOf (o : Host.Outcome State Fault Refusal) : Option Word := look (fun t => t.regValue .status) o

/-- "a\nb" (95_test_vectors.md V-BRK-5). -/
def dictAB : Bytes := [0x61#8, 0x0A#8, 0x62#8]

/-- "ab\nba" (95_test_vectors.md V-BRK-14). -/
def dictABBA : Bytes := [0x61#8, 0x62#8, 0x0A#8, 0x62#8, 0x61#8]

/-! ## WellFormed refuses -/

theorem test_params_refuse_no_dmem : Params.wf { dmemSize := 0, dictCap := 4 } = false := by decide
theorem test_params_refuse_large_dmem : Params.wf { dmemSize := 65537, dictCap := 1 } = false := by decide
theorem test_params_refuse_product : Params.wf { dmemSize := 65536, dictCap := 65536 } = false := by decide
theorem test_params_accept_largest : Params.wf { dmemSize := 65536, dictCap := 65535 } = true := by decide
theorem test_commandWord_refuses_gap_opcodes :
    commandWordWf 0x0D#32 = false ∧ commandWordWf 0x0E#32 = false ∧ commandWordWf 0x10#32 = false := by decide
theorem test_commandWord_refuses_reserved_bits : commandWordWf 0x00000100#32 = false := by decide
/-- No command has an operand field, so no command is ill formed (30_encoding.md R111). -/
theorem test_instr_wf_always : ∀ i : Instr, i.wf = true := by intro i; cases i <;> rfl
theorem test_access_refuses_16_bit :
    Access.supported { dmemSize := 16 } { kind := .read, offset := 0x10000, width := .w16 } = false := by decide
theorem test_access_refuses_8_bit_register :
    Access.supported { dmemSize := 16 } { kind := .read, offset := 0, width := .w8 } = false := by decide
theorem test_access_refuses_misaligned :
    Access.supported { dmemSize := 16 } { kind := .write, offset := 0x10002, width := .w32 } = false := by decide
theorem test_access_refuses_past_the_end :
    Access.supported { dmemSize := 18 } { kind := .write, offset := 0x10010, width := .w32 } = false := by decide
theorem test_access_refuses_unmapped :
    Access.supported { dmemSize := 16 } { kind := .read, offset := 0x1000, width := .w32 } = false := by decide
theorem test_program_refuses_label_twice : hostProgramWf [.mark (.user 1), .mark (.user 1)] = false := by decide
theorem test_program_refuses_lost_branch : hostProgramWf [.bitNZ .status 0 (.user 1), .halt] = false := by decide
theorem test_asm_refuses_misaligned_word_write : AsmStmt.wf (.memWW 2 0#32) = false := by decide
theorem test_asm_refuses_misaligned_word_read : AsmStmt.wf (.memRW 1) = false := by decide

/-! ## Decoding: each command's word, written out from 30_encoding.md R112 -/

theorem test_decode_nop : decode 0b00000000000000000000000000000000#32 = .ok .nop := by rfl
theorem test_decode_hexenc : decode 0b00000000000000000000000000000001#32 = .ok .hexenc := by rfl
theorem test_decode_hexdec : decode 0b00000000000000000000000000000010#32 = .ok .hexdec := by rfl
theorem test_decode_xor : decode 0b00000000000000000000000000000011#32 = .ok .xor := by rfl
theorem test_decode_repxor : decode 0b00000000000000000000000000000100#32 = .ok .repxor := by rfl
theorem test_decode_hamming : decode 0b00000000000000000000000000000101#32 = .ok .hamming := by rfl
theorem test_decode_b64enc : decode 0b00000000000000000000000000000110#32 = .ok .b64enc := by rfl
theorem test_decode_b64dec : decode 0b00000000000000000000000000000111#32 = .ok .b64dec := by rfl
theorem test_decode_dictload : decode 0b00000000000000000000000000001000#32 = .ok .dictload := by rfl
theorem test_decode_wordhits : decode 0b00000000000000000000000000001001#32 = .ok .wordhits := by rfl
theorem test_decode_letterscore : decode 0b00000000000000000000000000001010#32 = .ok .letterscore := by rfl
theorem test_decode_breakscore : decode 0b00000000000000000000000000001011#32 = .ok .breakscore := by rfl
theorem test_decode_breakhits : decode 0b00000000000000000000000000001100#32 = .ok .breakhits := by rfl
theorem test_decode_reset : decode 0b00000000000000000000000000001111#32 = .ok .reset := by rfl
theorem test_decode_gap : decode 0x0E#32 = .error .unassignedOpcode := by rfl
theorem test_decode_high_opcode : decode 0xFF#32 = .error .unassignedOpcode := by rfl
theorem test_decode_reserved : decode 0x80000001#32 = .error .reservedBits := by rfl
theorem test_decodeTableWord_reads_32_bits : decodeTableWord 32 0x0F = some .reset := by rfl

/-! ## The first instruction after reset -/

theorem test_withFetchWord_runs_nop :
    statusOf (step (State.reset.withFetchWord 32 0x00)) = some 0x00000002#32 := by decide
theorem test_withFetchWord_runs_wordhits :
    statusOf (step (State.reset.withFetchWord 32 0x09)) = some 0x00000706#32 := by decide
/-- V-CTL-4. -/
theorem test_withFetchWord_illegal :
    statusOf (step (State.reset.withFetchWord 32 0x110)) = some 0x00000306#32 := by decide

/-! ## Commands, from 95_test_vectors.md unless a comment says by hand -/

/-- V-CTL-3. -/
theorem test_nop_keeps_dictValid :
    statusOf (exec .nop (withDict dictAB (latch .nop 0 0 0 0 0) [])) = some 0x0000000A#32 := by decide
/-- By hand from R191: "ab" is 61 62. -/
theorem test_hexenc_ab :
    look (fun t => (t.dmem.readBytes 8 4, t.outLen)) (exec .hexenc (busyAt (latch .hexenc 0 2 0 0 8))) =
      some (some [0x36#8, 0x31#8, 0x36#8, 0x32#8], 4#32) := by decide
/-- P4: "ab" as hex is AB; the destination overlaps the source. -/
theorem test_hexdec_in_place :
    look (fun t => (t.dmem.readBytes 0 2, t.outLen)) (exec .hexdec (busyAt (latch .hexdec 0 2 0 0 0))) =
      some (some [0xAB#8, 0x62#8], 1#32) := by decide
/-- By hand from R195: 'G' is no hex digit. -/
theorem test_hexdec_illegal_digit :
    statusOf (exec .hexdec (busyAt (latch .hexdec 2 2 0 0 0))) = some 0x00000106#32 := by decide
/-- By hand from R200, R86: 61^62, 62^0A written over source bytes. -/
theorem test_xor_overlapping :
    look (fun t => t.dmem.readBytes 0 4) (exec .xor (busyAt (latch .xor 0 2 1 2 1))) =
      some (some [0x61#8, 0x03#8, 0x68#8, 0x47#8]) := by decide
/-- P4: lengths differ. -/
theorem test_xor_length_mismatch :
    statusOf (exec .xor (busyAt (latch .xor 0 2 0 1 8))) = some 0x00000206#32 := by decide
/-- V-REPXOR-2's shape by hand: three bytes, a two-byte key. -/
theorem test_repxor_short_last_chunk :
    look (fun t => t.dmem.readBytes 8 3) (exec .repxor (busyAt (latch .repxor 0 3 0 2 8))) =
      some (some [0x00#8, 0x00#8, 0x6B#8]) := by decide
/-- P4: an empty key. -/
theorem test_repxor_empty_key :
    statusOf (exec .repxor (busyAt (latch .repxor 0 2 0 0 8))) = some 0x00000606#32 := by decide
/-- By hand from R210: 61^62 has 2 bits, 62^0A = 68 has 3. -/
theorem test_hamming_counts :
    look (fun t => (t.result, t.outLen, t.dmem)) (exec .hamming (busyAt (latch .hamming 0 2 1 2 0xFFFFFFFF))) =
      some (5#32, 0#32, smallMem) := by decide
/-- V-SRC-7: "this is a test" and "wokka wokka!!!". -/
theorem test_hamming_known_vector :
    hammingDistance
      [0x74#8, 0x68#8, 0x69#8, 0x73#8, 0x20#8, 0x69#8, 0x73#8, 0x20#8, 0x61#8, 0x20#8, 0x74#8, 0x65#8, 0x73#8, 0x74#8]
      [0x77#8, 0x6F#8, 0x6B#8, 0x6B#8, 0x61#8, 0x20#8, 0x77#8, 0x6F#8, 0x6B#8, 0x6B#8, 0x61#8, 0x21#8, 0x21#8, 0x21#8]
      = 37 := by decide
/-- V-SRC-4, V-SRC-5, V-SRC-6. -/
theorem test_b64enc_padding :
    b64Text [0x41#8] = [0x51#8, 0x51#8, 0x3D#8, 0x3D#8] ∧ b64Text [0x41#8, 0x41#8] = [0x51#8, 0x55#8, 0x45#8, 0x3D#8] ∧
      b64Text [0x41#8, 0x41#8, 0x41#8] = [0x51#8, 0x55#8, 0x46#8, 0x42#8] := by decide
/-- By hand from R233: 61 62 0A is "YWIK". -/
theorem test_b64enc_writes :
    look (fun t => (t.dmem.readBytes 8 4, t.outLen)) (exec .b64enc (busyAt (latch .b64enc 0 3 0 0 8))) =
      some (some [0x59#8, 0x57#8, 0x49#8, 0x4B#8], 4#32) := by decide
/-- V-SRC-5 read backwards: "QUE=" is "AA". -/
theorem test_b64dec_one_pad :
    look (fun t => (t.dmem.readBytes 8 2, t.outLen)) (exec .b64dec (busyAt (latch .b64dec 4 4 0 0 8))) =
      some (some [0x41#8, 0x41#8], 2#32) := by decide
/-- By hand from R236: a length of 3 is no multiple of 4. -/
theorem test_b64dec_bad_length :
    statusOf (exec .b64dec (busyAt (latch .b64dec 4 3 0 0 8))) = some 0x00000106#32 := by decide
/-- By hand from R262, R264: "ab\n" has one word, and newline counts 0. -/
theorem test_dictload_tables :
    look (fun t => (t.dictLen, t.result, t.dictValid, t.freq[0x61], t.freq[0x0A]))
      (exec .dictload (busyAt (latch .dictload 0 3 0 0 0))) = some (3#32, 1#32, true, 1#32, 0#32) := by decide +kernel
/-- V-FRQ-8: DICT_LOADED comes before the range check. -/
theorem test_dictload_twice :
    statusOf (exec .dictload (withDict dictAB (latch .dictload 0xFFFFFFFF 1 0 0 0) [])) = some 0x0000080E#32 := by decide
/-- By hand from R267: of the tokens "a", "c", "b", two are words. -/
theorem test_wordhits_counts :
    look (fun t => t.result)
      (exec .wordhits (withDict dictAB (latch .wordhits 0 5 0 0 0) [0x61#8, 0x20#8, 0x63#8, 0x09#8, 0x62#8])) =
      some 2#32 := by decide
/-- By hand from R272: "aab" with each letter counted 2 in "ab\nba". -/
theorem test_letterscore_sums :
    look (fun t => t.result)
      (exec .letterscore (withDict dictABBA (latch .letterscore 0 3 0 0 0) [0x61#8, 0x61#8, 0x62#8])) =
      some 6#32 := by decide +kernel
/-- V-BRK-5: a best score of 1 is no result; D_ADDR is not checked (V-BRK-18). -/
theorem test_breakscore_floor :
    look (fun t => (t.found, t.key, t.result, t.outLen, t.err))
      (exec .breakscore (withDict dictAB (latch .breakscore 0 1 0 0 0xFFFFFFFF) [0x61#8])) =
      some (false, 0#8, 0#32, 0#32, false) := by decide +kernel
/-- By hand from R294: keys 0 and 3 turn "ab" into "ab" and "ba", score 4 each; the greater key wins. -/
theorem test_breakscore_tie :
    look (fun t => (t.found, t.key, t.result, t.dmem.readBytes 0 2))
      (exec .breakscore (withDict dictABBA (latch .breakscore 0 2 0 0 0) [0x61#8, 0x62#8])) =
      some (true, 3#8, 4#32, some [0x62#8, 0x61#8]) := by decide +kernel
/-- V-BRK-14. -/
theorem test_breakhits_records :
    look (fun t => (t.found, t.result, t.dmem.readBytes 3 10))
      (exec .breakhits (withDict dictABBA (latch .breakhits 0 2 0 0 3) [0x61#8, 0x62#8])) =
      some (true, 2#32, some [0x00#8, 0x01#8, 0x00#8, 0x00#8, 0x00#8, 0x03#8, 0x01#8, 0x00#8, 0x00#8, 0x00#8]) := by
  decide +kernel
/-- V-BRK-19: no record, and the destination one past the end. -/
theorem test_breakhits_checks_empty_destination :
    statusOf (exec .breakhits (withDict dictABBA (latch .breakhits 0 1 0 0 17) [0x7A#8])) = some 0x0000040E#32 := by
  decide +kernel
/-- V-CTL-7. -/
theorem test_reset_command :
    look (fun t => (t.dictLen, t.dictValid, t.done, t.dmem))
      (exec .reset (withDict dictAB (latch .reset 0 0 0 0 0) [0x61#8])) = some (0#32, false, true, [(0, 0x61#8)]) := by
  decide

/-! ## The host port, from 95_test_vectors.md section 2.9 -/

/-- P2 by hand: MEM.WB 0x004, 0x61 and MEM.RB 0x004. -/
theorem test_host_byte_access :
    (idle.hostAccess { kind := .write, offset := 0x10004, width := .w8, data := 0x61#32 }).dmem.readBytes 3 3 =
      some [0x47#8, 0x61#8, 0x55#8] ∧
    (idle.hostAccess { kind := .read, offset := 0x10000, width := .w8 }).host.reads =
      [{ offset := 0x10000, width := .w8, value := 0x61#32 }] := by decide

/-- V-CTL-17. -/
theorem test_host_word_write_is_little_endian :
    (idle.hostAccess { kind := .write, offset := 0x10000, width := .w32, data := 0x11223344#32 }).dmem.readBytes 0 4 =
      some [0x44#8, 0x33#8, 0x22#8, 0x11#8] := by decide
/-- V-CTL-10 and V-CTL-9. -/
theorem test_clear_overrun :
    ({ idle with overrun := true }.hostAccess { kind := .write, offset := 8, width := .w32, data := 0x1F#32 }).overrun = true ∧
    ({ idle with overrun := true }.hostAccess { kind := .write, offset := 8, width := .w32, data := 0x20#32 }).overrun = false := by
  decide
/-- V-CTL-13 to V-CTL-16. -/
theorem test_host_model_faults :
    (idle.hostAccess { kind := .read, offset := 0x10000, width := .w16 }).modelFault = some .hostBusError ∧
    (idle.hostAccess { kind := .read, offset := 0x01000, width := .w32 }).modelFault = some .hostBusError ∧
    ((busyAt (latch .nop 0 0 0 0 0)).hostAccess { kind := .read, offset := 0x10000, width := .w8 }).modelFault =
      some .hostRace ∧
    (idle.hostAccess { kind := .read, offset := 0x10008, width := .w8 }).modelFault = some .uninitRead := by decide

/-! ## Witnesses: a state and operands for each clause of each statement with hypotheses -/

theorem witness_DecodeOfEncode : Instr.wf .breakhits = true := by decide

theorem witness_StepRunsDecodedCommand :
    (busyAt (latch .xor 0 1 1 1 2)).nextTurn = .engine ∧
    (busyAt (latch .xor 0 1 1 1 2)).latched = some (latch .xor 0 1 1 1 2) ∧
    decode (latch .xor 0 1 1 1 2).cmd = .ok .xor := ⟨rfl, rfl, rfl⟩

theorem witness_StepRunsHostAccess :
    (hosted idle [regReadStmt .id]).nextTurn = .host ∧
    (hosted idle [regReadStmt .id]).host.current = some (.access { kind := .read, offset := 0, width := .w32 }) := by
  decide

theorem witness_IllegalWordCompletesWithCode3 :
    (busyAt { latch .nop 0 0 0 0 0 with cmd := 0x110#32 }).nextTurn = .engine ∧
    (busyAt { latch .nop 0 0 0 0 0 with cmd := 0x110#32 }).Running { latch .nop 0 0 0 0 0 with cmd := 0x110#32 } ∧
    (0x100#32).toNat / 256 ≠ 0 ∧ (0x0D#32).toNat % 256 = 0x0D ∧ (0x0E#32).toNat % 256 = 0x0E ∧
    0x10 ≤ (0x10#32).toNat % 256 ∧ 0x10 ≤ (0xFF#32).toNat % 256 := by decide

theorem witness_CmdWriteIssues : idle.busy = false := by decide

theorem witness_CmdWriteWhileBusyOnlyOverruns :
    (busyAt (latch .hexenc 0 1 0 0 8)).busy = true ∧ Instr.hexenc ≠ .reset ∧
    (busyAt (latch .hexenc 0 1 0 0 8)).modelFault = none := by decide

theorem witness_EveryCommandCompletesOrRecordsUninitRead :
    (busyAt (latch .b64dec 8 4 0 0 0)).Running (latch .b64dec 8 4 0 0 0) := by decide

theorem witness_FailedCommandHasNoEffectButItsReport :
    exec .wordhits (busyAt (latch .wordhits 0 1 0 0 0)) =
      .next ((busyAt (latch .wordhits 0 1 0 0 0)).failed .noDictionary) ∧
    ((busyAt (latch .wordhits 0 1 0 0 0)).failed .noDictionary).busy = false ∧
    ((busyAt (latch .wordhits 0 1 0 0 0)).failed .noDictionary).err = true := ⟨rfl, rfl, rfl⟩

theorem witness_IssuedCommandCompletesInBoundedSteps :
    (hosted (busyAt (latch .nop 0 0 0 0 0)) (waitStmts 0)).busy = true ∧
    (hosted (busyAt (latch .nop 0 0 0 0 0)) (waitStmts 0)).modelFault = none ∧
    branchesDefined (labelsOf (waitStmts 0)) (waitStmts 0) = true ∧
    (∀ u ∈ (hosted (busyAt (latch .nop 0 0 0 0 0)) (waitStmts 0)).turns, u ≠ .reset ∧ u ≠ .powerOn) := by decide

theorem witness_NopCompletesWithZeroResults :
    (busyAt (latch .nop 0 0 0 0 0)).Running (latch .nop 0 0 0 0 0) := by decide

theorem witness_ResetCommandClearsRegistersKeepsDmem :
    (busyAt (latch .reset 0 0 0 0 0)).Running (latch .reset 0 0 0 0 0) := by decide

/-- A range past the end by one byte, a hole as the last byte, a destination that ends at the end, one a byte further. -/
theorem witness_HexencResult :
    (∀ L ∈ [latch .hexenc 15 2 0 0 0, latch .hexenc 17 0 0 0 0, latch .hexenc 0xFFFFFFFF 1 0 0 0],
      (busyAt L).Running L ∧ ¬ (busyAt L).Inside L.aAddr L.aLen.toNat) ∧
    (∀ L ∈ [latch .hexenc 7 2 0 0 0],
      (busyAt L).Running L ∧ (busyAt L).Inside L.aAddr L.aLen.toNat ∧ (busyAt L).HasHole L.aAddr L.aLen.toNat) ∧
    (∀ L ∈ [latch .hexenc 14 2 0 0 12, latch .hexenc 14 2 0 0 13],
      (busyAt L).Running L ∧ (busyAt L).Inside L.aAddr L.aLen.toNat ∧
      (busyAt L).Holds L.aAddr L.aLen.toNat [0x3D#8, 0x3D#8]) ∧
    (busyAt (latch .hexenc 14 2 0 0 12)).Inside 12#32 4 ∧ ¬ (busyAt (latch .hexenc 14 2 0 0 13)).Inside 13#32 4 := by
  decide

/-- As for HEXENC; the text "ab" is legal, "ab\n" has odd length, "\nG" has illegal digits. -/
theorem witness_HexdecResult :
    (∀ L ∈ [latch .hexdec 15 2 0 0 0], (busyAt L).Running L ∧ ¬ (busyAt L).Inside L.aAddr L.aLen.toNat) ∧
    (∀ L ∈ [latch .hexdec 7 2 0 0 0],
      (busyAt L).Running L ∧ (busyAt L).Inside L.aAddr L.aLen.toNat ∧ (busyAt L).HasHole L.aAddr L.aLen.toNat) ∧
    (∀ L ∈ [latch .hexdec 0 2 0 0 15, latch .hexdec 0 2 0 0 16],
      (busyAt L).Running L ∧ (busyAt L).Inside L.aAddr L.aLen.toNat ∧
      (busyAt L).Holds L.aAddr L.aLen.toNat [0x61#8, 0x62#8]) ∧
    (∀ c ∈ [0x61#8, 0x62#8], hexVal c ≠ none) ∧
    (busyAt (latch .hexdec 0 2 0 0 15)).Inside 15#32 1 ∧ ¬ (busyAt (latch .hexdec 0 2 0 0 16)).Inside 16#32 1 ∧
    (busyAt (latch .hexdec 0 3 0 0 0)).Holds 0#32 3 [0x61#8, 0x62#8, 0x0A#8] ∧
    (busyAt (latch .hexdec 2 2 0 0 0)).Holds 2#32 2 [0x0A#8, 0x47#8] ∧ hexVal 0x47#8 = none := by decide

/-- Operand A outside, A with a hole, B outside, B with a hole, lengths that differ, and a destination at the edge. -/
theorem witness_XorResult :
    (∀ L ∈ [latch .xor 15 2 0 2 0], (busyAt L).Running L ∧ ¬ (busyAt L).Inside L.aAddr L.aLen.toNat) ∧
    (∀ L ∈ [latch .xor 7 2 0 2 0],
      (busyAt L).Running L ∧ (busyAt L).Inside L.aAddr L.aLen.toNat ∧ (busyAt L).HasHole L.aAddr L.aLen.toNat) ∧
    (∀ L ∈ [latch .xor 0 2 15 2 0, latch .xor 0 2 7 2 0, latch .xor 0 2 2 3 0, latch .xor 0 2 14 2 14,
        latch .xor 0 2 14 2 15],
      (busyAt L).Running L ∧ (busyAt L).Inside L.aAddr L.aLen.toNat ∧
      (busyAt L).Holds L.aAddr L.aLen.toNat [0x61#8, 0x62#8]) ∧
    ¬ (busyAt (latch .xor 0 2 15 2 0)).Inside 15#32 2 ∧
    (busyAt (latch .xor 0 2 7 2 0)).Inside 7#32 2 ∧ (busyAt (latch .xor 0 2 7 2 0)).HasHole 7#32 2 ∧
    (busyAt (latch .xor 0 2 2 3 0)).Holds 2#32 3 [0x0A#8, 0x47#8, 0x51#8] ∧
    (busyAt (latch .xor 0 2 14 2 14)).Inside 14#32 2 ∧ (busyAt (latch .xor 0 2 14 2 14)).Holds 14#32 2 [0x3D#8, 0x3D#8] ∧
    ¬ (busyAt (latch .xor 0 2 14 2 15)).Inside 15#32 2 := by decide

/-- As for XOR; the keys are empty and one byte long. -/
theorem witness_RepxorResult :
    (∀ L ∈ [latch .repxor 15 2 0 2 0], (busyAt L).Running L ∧ ¬ (busyAt L).Inside L.aAddr L.aLen.toNat) ∧
    (∀ L ∈ [latch .repxor 7 2 0 2 0],
      (busyAt L).Running L ∧ (busyAt L).Inside L.aAddr L.aLen.toNat ∧ (busyAt L).HasHole L.aAddr L.aLen.toNat) ∧
    (∀ L ∈ [latch .repxor 0 2 17 0 0, latch .repxor 0 2 8 1 0, latch .repxor 0 2 16 0 0, latch .repxor 0 2 15 1 14,
        latch .repxor 0 2 15 1 15],
      (busyAt L).Running L ∧ (busyAt L).Inside L.aAddr L.aLen.toNat ∧
      (busyAt L).Holds L.aAddr L.aLen.toNat [0x61#8, 0x62#8]) ∧
    ¬ (busyAt (latch .repxor 0 2 17 0 0)).Inside 17#32 0 ∧
    (busyAt (latch .repxor 0 2 8 1 0)).Inside 8#32 1 ∧ (busyAt (latch .repxor 0 2 8 1 0)).HasHole 8#32 1 ∧
    (busyAt (latch .repxor 0 2 16 0 0)).Inside 16#32 0 ∧ (busyAt (latch .repxor 0 2 16 0 0)).Holds 16#32 0 [] ∧
    (busyAt (latch .repxor 0 2 15 1 14)).Inside 15#32 1 ∧ (busyAt (latch .repxor 0 2 15 1 14)).Holds 15#32 1 [0x3D#8] ∧
    (busyAt (latch .repxor 0 2 15 1 14)).Inside 14#32 2 ∧
    ¬ (busyAt (latch .repxor 0 2 15 1 15)).Inside 15#32 2 := by decide

theorem witness_HammingResult :
    (∀ L ∈ [latch .hamming 15 2 0 2 0], (busyAt L).Running L ∧ ¬ (busyAt L).Inside L.aAddr L.aLen.toNat) ∧
    (∀ L ∈ [latch .hamming 7 2 0 2 0],
      (busyAt L).Running L ∧ (busyAt L).Inside L.aAddr L.aLen.toNat ∧ (busyAt L).HasHole L.aAddr L.aLen.toNat) ∧
    (∀ L ∈ [latch .hamming 0 2 15 2 0, latch .hamming 0 2 7 2 0, latch .hamming 0 2 2 3 0, latch .hamming 0 2 14 2 0],
      (busyAt L).Running L ∧ (busyAt L).Inside L.aAddr L.aLen.toNat ∧
      (busyAt L).Holds L.aAddr L.aLen.toNat [0x61#8, 0x62#8]) ∧
    ¬ (busyAt (latch .hamming 0 2 15 2 0)).Inside 15#32 2 ∧
    (busyAt (latch .hamming 0 2 7 2 0)).Inside 7#32 2 ∧ (busyAt (latch .hamming 0 2 7 2 0)).HasHole 7#32 2 ∧
    (busyAt (latch .hamming 0 2 2 3 0)).Holds 2#32 3 [0x0A#8, 0x47#8, 0x51#8] ∧
    (busyAt (latch .hamming 0 2 14 2 0)).Holds 14#32 2 [0x3D#8, 0x3D#8] := by decide

theorem witness_B64encResult :
    (∀ L ∈ [latch .b64enc 15 2 0 0 0], (busyAt L).Running L ∧ ¬ (busyAt L).Inside L.aAddr L.aLen.toNat) ∧
    (∀ L ∈ [latch .b64enc 7 2 0 0 0],
      (busyAt L).Running L ∧ (busyAt L).Inside L.aAddr L.aLen.toNat ∧ (busyAt L).HasHole L.aAddr L.aLen.toNat) ∧
    (∀ L ∈ [latch .b64enc 14 2 0 0 12, latch .b64enc 14 2 0 0 13],
      (busyAt L).Running L ∧ (busyAt L).Inside L.aAddr L.aLen.toNat ∧
      (busyAt L).Holds L.aAddr L.aLen.toNat [0x3D#8, 0x3D#8]) ∧
    (busyAt (latch .b64enc 14 2 0 0 12)).Inside 12#32 (4 * ((2 + 2) / 3)) ∧
    ¬ (busyAt (latch .b64enc 14 2 0 0 13)).Inside 13#32 (4 * ((2 + 2) / 3)) := by decide

theorem witness_B64decResult :
    (∀ L ∈ [latch .b64dec 15 2 0 0 0], (busyAt L).Running L ∧ ¬ (busyAt L).Inside L.aAddr L.aLen.toNat) ∧
    (∀ L ∈ [latch .b64dec 7 2 0 0 0],
      (busyAt L).Running L ∧ (busyAt L).Inside L.aAddr L.aLen.toNat ∧ (busyAt L).HasHole L.aAddr L.aLen.toNat) ∧
    (∀ L ∈ [latch .b64dec 4 4 0 0 14, latch .b64dec 4 4 0 0 15],
      (busyAt L).Running L ∧ (busyAt L).Inside L.aAddr L.aLen.toNat ∧
      (busyAt L).Holds L.aAddr L.aLen.toNat [0x51#8, 0x55#8, 0x45#8, 0x3D#8]) ∧
    b64Parse [0x51#8, 0x55#8, 0x45#8, 0x3D#8] = some ([16, 20, 4], 1) ∧
    (busyAt (latch .b64dec 4 4 0 0 14)).Inside 14#32 (b64Decode [16, 20, 4] 1).length ∧
    ¬ (busyAt (latch .b64dec 4 4 0 0 15)).Inside 15#32 (b64Decode [16, 20, 4] 1).length ∧
    (busyAt (latch .b64dec 4 3 0 0 0)).Holds 4#32 3 [0x51#8, 0x55#8, 0x45#8] ∧
    b64Parse [0x51#8, 0x55#8, 0x45#8] = none := by decide

/-- DICT_CAP is 4: four bytes fit, five do not. -/
theorem witness_DictloadResult :
    (withDict dictAB (latch .dictload 0 1 0 0 0) []).dictValid = true ∧
    (∀ L ∈ [latch .dictload 15 2 0 0 0],
      (busyAt L).Running L ∧ (busyAt L).dictValid = false ∧ ¬ (busyAt L).Inside L.aAddr L.aLen.toNat) ∧
    (∀ L ∈ [latch .dictload 7 2 0 0 0],
      (busyAt L).Inside L.aAddr L.aLen.toNat ∧ (busyAt L).HasHole L.aAddr L.aLen.toNat) ∧
    (busyAt (latch .dictload 0 5 0 0 0)).Holds 0#32 5 [0x61#8, 0x62#8, 0x0A#8, 0x47#8, 0x51#8] ∧
    (busyAt (latch .dictload 0 5 0 0 0)).cfg.dictCap < 5 ∧
    (busyAt (latch .dictload 0 4 0 0 0)).Holds 0#32 4 [0x61#8, 0x62#8, 0x0A#8, 0x47#8] ∧
    4 ≤ (busyAt (latch .dictload 0 4 0 0 0)).cfg.dictCap := by decide

/-- The clauses of the four commands that need a dictionary: none loaded, the source outside, with a hole, and held. -/
theorem witness_dictionary_commands :
    ∀ i ∈ [Instr.wordhits, .letterscore, .breakscore, .breakhits],
      ((busyAt (latch i 0 1 0 0 0)).Running (latch i 0 1 0 0 0) ∧ (busyAt (latch i 0 1 0 0 0)).dictValid = false) ∧
      ((withDict dictAB (latch i 15 2 0 0 0) []).Running (latch i 15 2 0 0 0) ∧
        (withDict dictAB (latch i 15 2 0 0 0) []).dictValid = true ∧
        ¬ (withDict dictAB (latch i 15 2 0 0 0) []).Inside 15#32 2) ∧
      ((withDict dictAB (latch i 14 2 0 0 0) []).Inside 14#32 2 ∧
        (withDict dictAB (latch i 14 2 0 0 0) []).HasHole 14#32 2) ∧
      ((withDict dictAB (latch i 0 1 0 0 0) [0x61#8]).Running (latch i 0 1 0 0 0) ∧
        (withDict dictAB (latch i 0 1 0 0 0) [0x61#8]).Inside 0#32 1 ∧
        (withDict dictAB (latch i 0 1 0 0 0) [0x61#8]).Holds 0#32 1 [0x61#8]) := by decide

/-- A search with no result, one with a result, and its destination at the edge and one byte further. -/
theorem witness_BreakscoreResult :
    reportedBest (freqTable dictAB) [0x61#8] = none ∧
    reportedBest (freqTable dictABBA) [0x61#8, 0x62#8] = some { key := 3#8, plain := [0x62#8, 0x61#8], score := 4 } ∧
    (withDict dictABBA (latch .breakscore 0 2 0 0 14) [0x61#8, 0x62#8]).Inside 14#32 2 ∧
    ¬ (withDict dictABBA (latch .breakscore 0 2 0 0 15) [0x61#8, 0x62#8]).Inside 15#32 2 := by decide +kernel

/-- Two records at the edge of DMEM and one byte further. -/
theorem witness_BreakhitsResult :
    (searchByHits dictABBA [0x61#8, 0x62#8]).length = 2 ∧
    (withDict dictABBA (latch .breakhits 0 2 0 0 6) [0x61#8, 0x62#8]).Inside 6#32 10 ∧
    ¬ (withDict dictABBA (latch .breakhits 0 2 0 0 7) [0x61#8, 0x62#8]).Inside 7#32 10 := by decide +kernel

/-- A success of a storing command, and a stop on a hole, which leaves it in flight. -/
theorem witness_StoringCommandsFrame :
    (busyAt (latch .hexenc 0 1 0 0 14)).cfg.wf = true ∧
    (look (fun t => t.outLen) (exec .hexenc (busyAt (latch .hexenc 0 1 0 0 14)))) = some 2#32 ∧
    (look (fun t => t.busy) (exec .hexenc (busyAt (latch .hexenc 8 1 0 0 0)))) = some true ∧
    (look (fun t => (t.busy, t.err)) (exec .hexenc (busyAt (latch .hexenc 0 1 0 0 15)))) = some (false, true) := by
  decide

/-- A BREAKSCORE that completes without a result. -/
theorem witness_StoringCommandsFrame_no_result :
    look (fun t => (t.busy, t.err, t.found))
      (exec .breakscore (withDict dictAB (latch .breakscore 0 1 0 0 0) [0x61#8])) = some (false, false, false) := by
  decide +kernel

theorem witness_NonStoringCommandsFrame :
    look (fun t => t.result) (exec .hamming (busyAt (latch .hamming 0 1 1 1 0))) = some 2#32 := by decide

theorem witness_LoadedDictionaryIsImmutable :
    Instr.dictload ≠ .reset ∧ (withDict dictAB (latch .dictload 0 1 0 0 0) []).dictValid = true ∧
    look (fun t => t.err) (exec .dictload (withDict dictAB (latch .dictload 0 1 0 0 0) [])) = some true := by decide

theorem witness_OperandWritesDoNotDisturbCommand :
    0x01C ∈ [0x00C, 0x010, 0x014, 0x018, 0x01C] ∧ (busyAt (latch .xor 0 1 1 1 2)).busy = true ∧
    Instr.xor ≠ .reset := by decide

theorem freqTable_empty : Vector.replicate 256 0#32 = freqTable [] := by decide +kernel

/-- The small machine, whose invariant the witnesses below use. -/
theorem idle_inv : idle.Inv where
  cfg_wf := by decide
  dmem_wf := by decide
  dmem_below := by decide
  dict_cap := by decide
  freq_memo := freqTable_empty
  dict_empty := fun _ => rfl
  err_iff := by decide
  errcode_le := by decide
  busy_not_done := by decide

theorem witness_EveryStepKeepsInvariant : idle.Inv ∧ step idle = .next idle := ⟨idle_inv, rfl⟩

/-- The smallest and the largest instance, and a power-on in the middle of a run. -/
theorem witness_InvariantHoldsAtReset :
    Params.wf { dmemSize := 1, dictCap := 0 } = true ∧ Params.wf { dmemSize := 65536, dictCap := 65535 } = true ∧
    ({ busyAt (latch .nop 0 0 0 0 0) with turns := [.powerOn] } : State).nextTurn = .powerOn := by decide

/-- The largest parameters. -/
theorem witness_StoredValuesFit32Bits : State.Inv { State.reset with cfg := { dmemSize := 65536, dictCap := 65535 } } where
  cfg_wf := by decide
  dmem_wf := by decide
  dmem_below := by decide
  dict_cap := by decide
  freq_memo := freqTable_empty
  dict_empty := fun _ => rfl
  err_iff := by decide
  errcode_le := by decide
  busy_not_done := by decide

theorem witness_RecordedModelFaultIsNeverCleared :
    ({ hosted idle [regReadStmt .id] with modelFault := some .hostRace } : State).modelFault = some .hostRace ∧
    look (fun t => t.modelFault) (step { hosted idle [regReadStmt .id] with modelFault := some .hostRace }) =
      some (some .hostRace) := by decide

/-- A text, and a record with a hit count, of at most DMEM_SIZE bytes. -/
theorem witness_StoredValuesFit32Bits_hits :
    ([0x61#8, 0x62#8] : Bytes).length ≤ 65536 ∧ (3#8, 1) ∈ searchByHits dictABBA [0x61#8, 0x62#8] := by
  decide +kernel

/-- Both ends of each reserved and read-only range (10_state.md section 3), and a state with BUSY = 0. -/
theorem witness_ReservedAndReadOnlyRegisters :
    (∀ off ∈ [0x030, 0x3FC, 0x800, 0xFFC],
      off % 4 = 0 ∧ ((0x030 ≤ off ∧ off ≤ 0x3FC) ∨ (0x800 ≤ off ∧ off ≤ 0xFFC))) ∧
    (∀ off ∈ [0x020, 0x02C, 0x400, 0x7FC],
      off % 4 = 0 ∧ ((0x020 ≤ off ∧ off ≤ 0x02C) ∨ (0x400 ≤ off ∧ off ≤ 0x7FC))) ∧
    idle.busy = false ∧ RegName.offset (.freq 0xFF#8) = 0x7FC := by decide

theorem witness_StatusRegisterFieldsAndWrite :
    idle.busy = false ∧ (0x20#32).getLsbD 5 = true ∧ (0x1F#32).getLsbD 5 = false := by decide

theorem witness_BusyReadsAreFreeDraws :
    (busyAt (latch .dictload 0 1 0 0 0)).latched = some (latch .dictload 0 1 0 0 0) ∧
    decode (latch .dictload 0 1 0 0 0).cmd = .ok .dictload ∧ decode (latch .nop 0 0 0 0 0).cmd ≠ .ok .dictload :=
  ⟨rfl, rfl, by decide⟩

/-- Both ends of the DMEM window and of the register window. -/
theorem witness_DmemAccessWhileBusyIsHostRace :
    (busyAt (latch .nop 0 0 0 0 0)).busy = true ∧
    (∀ off ∈ [0x10000, 0x1000F], 0x10000 ≤ off ∧ off < 0x10000 + (busyAt (latch .nop 0 0 0 0 0)).cfg.dmemSize) ∧
    (∀ off ∈ [0x000, 0xFFC], off < 0x1000 ∧ off % 4 = 0) := by decide

/-- Both ends of the DMEM window, and while BUSY = 1 the offsets on both sides of it and a register's. -/
theorem witness_UnsupportedAccessIsHostBusError :
    idle.busy = false ∧ (busyAt (latch .nop 0 0 0 0 0)).busy = true ∧
    (∀ off ∈ [0x01000, 0x0FFFF, 0x10010, 0x00002],
      Access.supported idle.cfg { kind := .write, offset := off, width := .w32 } = false ∧
      (off < 0x10000 ∨ 0x10000 + idle.cfg.dmemSize ≤ off)) ∧
    Access.supported idle.cfg { kind := .write, offset := 0x00FFC, width := .w32 } = true ∧
    Access.supported idle.cfg { kind := .write, offset := 0x10010, width := .w8 } = false ∧
    Access.supported idle.cfg { kind := .write, offset := 0x1000F, width := .w8 } = true ∧
    Access.supported idle.cfg { kind := .write, offset := 0x1000C, width := .w32 } = true := by decide

/-- The last aligned word of DMEM, all its bytes held; its last byte for the 8-bit accesses. -/
theorem witness_LittleEndianEverywhere :
    idle.busy = false ∧ 15 < idle.cfg.dmemSize ∧ 12 % 4 = 0 ∧ 12 + 4 ≤ idle.cfg.dmemSize ∧ idle.dmem.read 12 = some 0x41#8 ∧
    idle.dmem.read 13 = some 0x41#8 ∧ idle.dmem.read 14 = some 0x3D#8 ∧ idle.dmem.read 15 = some 0x3D#8 := by decide

/-- A hole as the first and as the last byte of a word; the last address of a DMEM that holds nothing. -/
theorem witness_HostReadOfValuelessByteIsUninitRead :
    idle.busy = false ∧ (∀ a ∈ [8, 11], idle.dmem.read a = none ∧ 8 ≤ a ∧ a < 8 + 4 ∧ 8 + 4 ≤ idle.cfg.dmemSize) ∧
    ({ idle with dmem := [] } : State).dmem.read 15 = none ∧ 15 < idle.cfg.dmemSize := by decide

/-- A host that has read STATUS with BUSY 1, at a WAIT's branch. -/
def waiting : State :=
  { hosted (busyAt (latch .nop 0 0 0 0 0)) (waitStmts 0) with
    host := { program := waitStmts 0, pos := 2, reads := [{ offset := 0x008, width := .w32, value := 1#32 }] } }

theorem witness_HostBranchFollowsLastRead :
    waiting.nextTurn = .host ∧ waiting.host.current = some (.bitNZ .status 0 (.wait 0)) ∧
    waiting.host.lastRead .status = some 1#32 ∧ labelIndex (.wait 0) waiting.host.program = some 0 := by decide

theorem witness_HardResetRegisters :
    ({ idle with turns := [.reset] } : State).nextTurn = .reset ∧ ({ idle with turns := [.reset] } : State).busy = false := by
  decide

/-- HEXENC with a destination two bytes before the end: Bound is 4, the range is cut at DMEM_SIZE. -/
theorem witness_HardResetLosesDestinationBytes :
    ({ busyAt (latch .hexenc 0 2 0 0 14) with turns := [.reset] } : State).nextTurn = .reset ∧
    (busyAt (latch .hexenc 0 2 0 0 14)).latched = some (latch .hexenc 0 2 0 0 14) ∧
    (busyAt (latch .hexenc 0 2 0 0 14)).hardReset.dmem.read 13 = some 0x41#8 ∧
    (busyAt (latch .hexenc 0 2 0 0 14)).hardReset.dmem.read 14 = none := ⟨rfl, rfl, rfl, rfl⟩

/-- HEXENC reaches its bound. -/
theorem witness_OutputNeverExceedsBound :
    (busyAt (latch .hexenc 0 2 0 0 8)).Running (latch .hexenc 0 2 0 0 8) ∧
    decode (latch .hexenc 0 2 0 0 8).cmd = .ok .hexenc ∧
    look (fun t => (t.busy, t.outLen)) (exec .hexenc (busyAt (latch .hexenc 0 2 0 0 8))) = some (false, 4#32) ∧
    latchBound (latch .hexenc 0 2 0 0 8) = 4 := ⟨by decide, rfl, by decide, rfl⟩

theorem witness_HexEncodeOfHexDecodeIsLowerCase :
    hexBytes [0x61#8, 0x46#8] = some [0xAF#8] ∧ hexBytes [] = some [] := by decide

theorem witness_XorAlgebra : ([0x61#8, 0xFF#8] : Bytes).length = ([0x00#8, 0x80#8] : Bytes).length := by decide

theorem witness_RepxorLaws :
    ([0x01#8] : Bytes) ≠ [] ∧ ([0x01#8, 0x02#8] : Bytes).length = ([0x61#8, 0x62#8] : Bytes).length := by decide

theorem witness_HammingLaws : ([] : Bytes).length = ([] : Bytes).length ∧ ([0xFF#8] : Bytes).length = ([0x00#8] : Bytes).length := by
  decide

/-- An input of each length modulo 3. -/
theorem witness_B64PaddingShape :
    ([0x41#8] : Bytes).length % 3 = 1 ∧ ([0x41#8, 0x41#8] : Bytes).length % 3 = 2 ∧ ([] : Bytes).length % 3 = 0 ∧
    (b64Text [0x41#8])[2]? = some 0x3D#8 := by decide

/-- Texts with one and two padding bytes, with discarded bits 0 and not 0 ("QUE=", "QUF=", "QQ==", "QR=="). -/
theorem witness_B64RoundTrips :
    b64Parse [0x51#8, 0x55#8, 0x45#8, 0x3D#8] = some ([16, 20, 4], 1) ∧
    b64Parse [0x51#8, 0x55#8, 0x46#8, 0x3D#8] = some ([16, 20, 5], 1) ∧
    b64Parse [0x51#8, 0x51#8, 0x3D#8, 0x3D#8] = some ([16, 16], 2) ∧
    b64Parse [0x51#8, 0x52#8, 0x3D#8, 0x3D#8] = some ([16, 17], 2) ∧ b64Parse [] = some ([], 0) := by decide

theorem witness_RunsAreMaximal :
    tokensOf [0x20#8, 0x61#8, 0x0B#8, 0x0C#8, 0x62#8, 0x0D#8] = [[0x61#8], [0x62#8]] ∧ wordsOf dictAB = [[0x61#8], [0x62#8]] ∧
    isNewline 0x0A#8 = true ∧ dictAB ≠ [] ∧ (∀ c ∈ [0x61#8, 0x62#8], isNewline c = false) ∧
    [0x61#8] ∈ runs isNewline dictAB := by decide

/-- A key that qualifies. -/
theorem witness_BreakhitsRecordsExactlyQualifyingKeys :
    (3#8, 1) ∈ searchByHits dictABBA [0x61#8, 0x62#8] := by decide +kernel

/-- A search with a result and other surviving keys. -/
theorem witness_BreakscoreSelectsGreatestKeyOfBestScore :
    survives (candidate [0x61#8, 0x62#8] 3#8) = true ∧ survives (candidate [0x61#8, 0x62#8] 0#8) = true := by decide

end Sys2Proof.Tests
end

section
/-! PROOFS. Obligation O31: every step of every agent keeps `State.Inv`. First the length of each command's output, which
is what the destination check is about; then one rule per operation on the state; then the completion, the host's turn
and the step, each assembled from the rules below it. -/

namespace Sys2Proof.Machine

/-! ## The length of each command's output -/

@[simp] theorem hexText_length (a : Bytes) : (hexText a).length = 2 * a.length := by
  simp [hexText, toHexText, List.length_flatMap, Nat.mul_comm]

theorem hexBytes_length {t out : Bytes} (h : hexBytes t = some out) : out.length = t.length / 2 := by
  induction t using hexBytes.induct generalizing out with
  | case1 => cases h; rfl
  | case2 => cases h
  | case3 hi lo t b bs hbs hb ih =>
    simp only [hexBytes, hb, hbs, Option.some.injEq] at h
    subst h
    simp only [List.length_cons, ih hbs]
    omega
  | case4 hi lo t hnone ih =>
    rw [hexBytes] at h
    split at h
    · exact absurd ‹hexBytes t = _› (hnone _ _ ‹_›)
    · cases h

theorem xorBytes_length {a b : Bytes} (h : a.length = b.length) : (xorBytes a b).length = a.length := by
  simp [xorBytes, h]

theorem repXorFrom_length (k : Bytes) (i : Nat) (a : Bytes) : (repXorFrom k i a).length = a.length := by
  induction a generalizing i with
  | nil => rfl
  | cons x xs ih => simp only [repXorFrom, List.length_cons, ih]

@[simp] theorem repXor_length (a k : Bytes) : (repXor a k).length = a.length := repXorFrom_length k 0 a

theorem b64Values_length (a : Bytes) : (b64Values a).length = 4 * ((a.length + 2) / 3) := by
  induction a using b64Values.induct with
  | case1 => rfl
  | case2 => simp [b64Values]
  | case3 => simp [b64Values]
  | case4 b0 b1 b2 t ih =>
    simp only [b64Values, List.length_cons, ih]
    omega

@[simp] theorem b64Text_length (a : Bytes) : (b64Text a).length = 4 * ((a.length + 2) / 3) := by
  rw [b64Text, List.length_map, b64Values_length]

@[simp] theorem candidate_length (c : Bytes) (k : Byte) : (candidate c k).length = c.length := by
  simp [candidate]

/-- A round of BREAKSCORE's loop retains either what was retained or the candidate of its own key. -/
theorem keepBest_cases {freq : Vector (BitVec 32) 256} {c : Bytes} {best : Option Best} {k : Byte} {b : Best}
    (h : keepBest freq c best k = some b) : best = some b ∨ b.plain = candidate c k := by
  unfold keepBest at h
  split at h
  · split at h
    · cases h; exact .inr rfl
    · split at h
      · cases h; exact .inr rfl
      · exact .inl h
  · exact .inl h

theorem searchByScore_plain_length {freq : Vector (BitVec 32) 256} {c : Bytes} {b : Best}
    (h : searchByScore freq c = some b) : b.plain.length = c.length := by
  refine List.foldlRecOn (motive := fun best => ∀ b, best = some b → b.plain.length = c.length) breakKeys
    (keepBest freq c) (by simp) (fun best ih k _ b hb => ?_) b h
  rcases keepBest_cases hb with hold | hnew
  · exact ih b hold
  · rw [hnew, candidate_length]

theorem reportedBest_plain_length {freq : Vector (BitVec 32) 256} {c : Bytes} {b : Best}
    (h : reportedBest freq c = some b) : b.plain.length = c.length :=
  searchByScore_plain_length (Option.filter_eq_some_iff.1 h).1

theorem flatMap_hitRecord_length (hits : List (Byte × Nat)) : (hits.flatMap hitRecord).length = 5 * hits.length := by
  simp [hitRecord, leBytes, List.length_flatMap, Nat.mul_comm]

/-- The bytes a command writes fit at its destination (40_command_cycle.md R146: CheckDst is about exactly them). -/
theorem bodyOf_out_inside {i : Instr} {s : State} {L : Latch} {r : Report} (h : bodyOf i s L = .ok r) :
    ∀ out ∈ r.out, s.Inside L.dAddr out.length := by
  rintro out ho
  cases i with
  | nop => cases h; cases ho
  | hexenc =>
    obtain ⟨a, _, hin, rfl⟩ := hexencBody_ok h
    cases ho; rwa [hexText_length]
  | hexdec =>
    obtain ⟨t, _, _, _, hbytes, hin, rfl⟩ := hexdecBody_ok h
    cases ho; rwa [hexBytes_length hbytes]
  | xor =>
    obtain ⟨a, b, _, _, hlen, hin, rfl⟩ := xorBody_ok h
    cases ho; rwa [xorBytes_length hlen]
  | repxor =>
    obtain ⟨a, k, _, _, _, hin, rfl⟩ := repxorBody_ok h
    cases ho; rwa [repXor_length]
  | hamming => obtain ⟨_, _, _, _, _, rfl⟩ := hammingBody_ok h; cases ho
  | b64enc =>
    obtain ⟨a, _, hin, rfl⟩ := b64encBody_ok h
    cases ho; rwa [b64Text_length]
  | b64dec =>
    obtain ⟨_, _, _, _, hin, rfl⟩ := b64decBody_ok h
    cases ho; exact hin
  | dictload => obtain ⟨_, _, _, _, rfl⟩ := dictloadBody_ok h; cases ho
  | wordhits => obtain ⟨_, _, _, rfl⟩ := wordhitsBody_ok h; cases ho
  | letterscore => obtain ⟨_, _, _, rfl⟩ := letterscoreBody_ok h; cases ho
  | breakscore =>
    obtain ⟨c, _, _, ⟨_, rfl⟩ | ⟨b, hbest, hin, rfl⟩⟩ := breakscoreBody_ok h
    · cases ho
    · cases ho; rwa [reportedBest_plain_length hbest]
  | breakhits =>
    obtain ⟨c, _, _, hin, rfl⟩ := breakhitsBody_ok h
    cases ho; rwa [flatMap_hitRecord_length]
  | reset => cases h; cases ho

/-! ## The tables the invariant mentions -/

/-- FREQ at reset is the table of the empty dictionary (44_frequency.md R262, 10_state.md R52). -/
theorem freqTable_nil : freqTable [] = Vector.replicate 256 0#32 := by
  ext b hb
  simp [freqTable, freqCount, wordsOf, runs, splitPieces]

theorem ErrCode.code_ne_zero (c : ErrCode) : c.code ≠ 0#4 := by cases c <;> decide

theorem ErrCode.code_le (c : ErrCode) : c.code.toNat ≤ 8 := by cases c <;> decide

/-! ## One rule per operation on the state -/

/-- All that the invariant speaks of. An update of the operand registers, the results, OVERRUN, the model fault or the
environment leaves every one of these as it was, which the default arguments see. -/
theorem State.Inv.congr {s t : State} (h : s.Inv) (hcfg : t.cfg = s.cfg := by rfl) (hdmem : t.dmem = s.dmem := by rfl)
    (hdict : t.dict = s.dict := by rfl) (hfreq : t.freq = s.freq := by rfl)
    (hvalid : t.dictValid = s.dictValid := by rfl) (herr : t.err = s.err := by rfl)
    (hcode : t.errcode = s.errcode := by rfl) (hbusy : t.busy = s.busy := by rfl)
    (hdone : t.done = s.done := by rfl) : t.Inv where
  cfg_wf := by rw [hcfg]; exact h.cfg_wf
  dmem_wf := by rw [hdmem]; exact h.dmem_wf
  dmem_below := by rw [hdmem, hcfg]; exact h.dmem_below
  dict_cap := by rw [hdict, hcfg]; exact h.dict_cap
  freq_memo := by rw [hfreq, hdict]; exact h.freq_memo
  dict_empty := by rw [hvalid, hdict]; exact h.dict_empty
  err_iff := by rw [herr, hcode]; exact h.err_iff
  errcode_le := by rw [hcode]; exact h.errcode_le
  busy_not_done := by rw [hbusy, hdone]; exact h.busy_not_done

section
variable {s t : State} (h : s.Inv)
include h

/-! ### DMEM -/

/-- The one rule about writes: host stores and command outputs both go through it. -/
theorem State.inv_writeBytes {a : Nat} {bs : Bytes} (ha : a + bs.length ≤ s.cfg.dmemSize) :
    State.Inv { s with dmem := s.dmem.writeBytes a bs } :=
  { h with
    dmem_wf := Memory.wf_writeBytes h.dmem_wf a bs
    dmem_below := Memory.below_writeBytes h.dmem_below ha }

theorem State.inv_writeOut {d : Word} {o : Option Bytes} (ho : ∀ bs ∈ o, s.Inside d bs.length) :
    (s.writeOut d o).Inv := by
  cases o with
  | none => exact h
  | some bs => exact State.inv_writeBytes h (ho bs rfl)

/-- A hard reset only takes entries away from DMEM (70_reset_and_hazards.md R384). -/
theorem State.dmemAfterReset_wf_below :
    s.dmemAfterReset.wf = true ∧ s.dmemAfterReset.below s.cfg.dmemSize = true := by
  unfold State.dmemAfterReset
  split
  · exact ⟨h.dmem_wf, h.dmem_below⟩
  · exact ⟨Memory.wf_forget h.dmem_wf _ _, Memory.below_forget h.dmem_below _ _⟩

/-! ### Dictionary, flags and results -/

theorem State.inv_loadDict {o : Option Bytes} (ho : ∀ d ∈ o, d.length ≤ s.cfg.dictCap) : (s.loadDict o).Inv := by
  cases o with
  | none => exact h
  | some d =>
    exact { h with
      dict_cap := ho d rfl
      freq_memo := rfl
      dict_empty := fun hv => Bool.noConfusion hv }

theorem State.inv_setResults (n r : Nat) (k : Byte) (b : Bool) : (s.setResults n r k b).Inv := h.congr

theorem State.inv_markOk : s.markOk.Inv := { h with err_iff := by simp, errcode_le := by simp }

theorem State.inv_markErr (c : ErrCode) : (s.markErr c).Inv :=
  { h with err_iff := by simp [c.code_ne_zero], errcode_le := c.code_le }

/-- BUSY falls as DONE rises. -/
theorem State.inv_finish : s.finish.Inv := { h with busy_not_done := by simp [State.busy] }

/-- BUSY rises with DONE 0, since the issue clears DONE (40_command_cycle.md R140). -/
theorem State.inv_issue (v : Word) : (s.issue v).Inv :=
  { h with err_iff := by simp [State.issue], errcode_le := by simp [State.issue], busy_not_done := fun _ => rfl }

theorem State.inv_recordFault (f : ModelFault) : (s.recordFault f).Inv := h.congr

/-! ### Resets -/

theorem State.inv_resetRegs : s.resetRegs.Inv :=
  { h with
    dict_cap := Nat.zero_le _
    freq_memo := freqTable_nil.symm
    dict_empty := fun _ => rfl
    err_iff := by simp
    errcode_le := by simp
    busy_not_done := fun _ => rfl }

theorem State.inv_hardReset : s.hardReset.Inv :=
  { State.inv_resetRegs h with
    dmem_wf := (State.dmemAfterReset_wf_below h).1
    dmem_below := (State.dmemAfterReset_wf_below h).2 }

theorem State.inv_powerOn : s.powerOn.Inv := { State.inv_resetRegs h with dmem_wf := rfl, dmem_below := rfl }

/-! ## Completion -/

/-- A success keeps the invariant when its output was checked against DMEM and its dictionary against the capacity. -/
theorem State.inv_applyOk {L : Latch} {r : Report} (hout : ∀ out ∈ r.out, s.Inside L.dAddr out.length)
    (hdict : ∀ d ∈ r.dict, d.length ≤ s.cfg.dictCap) : (s.applyOk L r).Inv := by
  unfold State.applyOk
  split
  · exact State.inv_resetRegs h
  · have hwritten := State.inv_setResults (State.inv_writeOut h hout) (r.out.getD []).length r.result r.key r.found
    exact State.inv_markOk (State.inv_loadDict hwritten (by simpa using hdict))

theorem State.inv_applyErr (c : ErrCode) : (s.applyErr c).Inv :=
  State.inv_markErr (State.inv_setResults h 0 0 0#8 false) c

/-- The engine's step keeps the invariant for every computation that makes the two checks before it succeeds. -/
theorem State.inv_complete {body : State → Latch → Cmd Report}
    (hbody : ∀ L r, body s L = .ok r →
      (∀ out ∈ r.out, s.Inside L.dAddr out.length) ∧ ∀ d ∈ r.dict, d.length ≤ s.cfg.dictCap)
    (hstep : s.complete body = .next t) : t.Inv := by
  obtain ⟨L, -, ⟨r, hok, rfl⟩ | ⟨c, -, rfl⟩ | ⟨f, -, rfl⟩⟩ := State.complete_cases hstep
  · obtain ⟨hout, hdict⟩ := hbody L r hok
    exact State.inv_finish (State.inv_applyOk h hout hdict)
  · exact State.inv_finish (State.inv_applyErr h c)
  · exact State.inv_recordFault h f

theorem inv_exec {i : Instr} (hstep : exec i s = .next t) : t.Inv := by
  rw [exec_eq_complete] at hstep
  refine State.inv_complete h (fun L r hok => ⟨bodyOf_out_inside hok, fun d hd => ?_⟩) hstep
  rcases bodyOf_dict hok with hnone | ⟨-, -, d', hsome, hcap⟩
  · rw [hnone] at hd; cases hd
  · rw [hsome] at hd; cases hd; exact hcap

/-- An illegal word's completion never succeeds, so it has nothing to check. -/
theorem inv_execIllegal (hstep : execIllegal s = .next t) : t.Inv :=
  State.inv_complete h (fun _ _ hok => by cases hok) hstep

/-! ## The host's turn -/

theorem State.inv_writeReg (r : RegName) (v : Word) : (s.writeReg r v).Inv := by
  rcases State.writeReg_cases s r v with
    ⟨-, -, e⟩ | ⟨-, -, e⟩ | ⟨-, -, e⟩ | ⟨-, e⟩ | ⟨-, e⟩ | ⟨-, e⟩ | ⟨-, e⟩ | ⟨-, e⟩ | e
  · rw [e]; exact State.inv_issue h v
  all_goals rw [e]; exact h.congr

theorem State.inv_hostAccess (a : Access) : (s.hostAccess a).Inv := by
  rcases State.hostAccess_cases s a with ⟨host, n, e, -, -⟩ | ⟨f, e⟩ | ⟨r, v, e⟩ | ⟨x, bs, -, hin, e⟩
  · rw [e]; exact h.congr
  · rw [e]; exact State.inv_recordFault h f
  · rw [e]; exact State.inv_writeReg h r v
  · rw [e]; exact State.inv_writeBytes h hin

theorem State.inv_hostStep (hstep : s.hostStep = .next t) : t.Inv := by
  rcases State.hostStep_cases hstep with ⟨a, -, rfl⟩ | ⟨host, n, rfl, -⟩
  · exact (State.inv_hostAccess h a).congr
  · exact h.congr

/-! ## The step -/

theorem step_inv (hstep : step s = .next t) : t.Inv := by
  have hpop : s.popTurn.Inv := h.congr
  rcases step_cases s with ⟨-, e⟩ | ⟨-, e⟩ | ⟨-, e⟩ | ⟨-, -, e⟩ | ⟨L, i, -, -, -, e⟩ | ⟨L, err, -, -, -, e⟩ <;>
    rw [e] at hstep
  · exact State.inv_hostStep hpop hstep
  · cases hstep; exact State.inv_hardReset hpop
  · cases hstep; exact State.inv_powerOn hpop
  · cases hstep; exact hpop
  · exact inv_exec hpop hstep
  · exact inv_execIllegal hpop hstep

end

/-- Settles O31: whichever agent moves, each operation on the state its move is made of keeps the invariant. -/
theorem everyStepKeepsInvariant : Obligations.EveryStepKeepsInvariant := fun _ _ h hstep => step_inv h hstep

end Sys2Proof.Machine
end

section
/-! PROOFS. Obligations O28, O29 and O32 (10_state.md R55, R56, R62): what a completion leaves of a loaded dictionary, of
the operand registers and of a recorded model fault. First what a command's computation looks at and what an engine with
a recorded fault answers; then one obligation after the other. -/

namespace Sys2Proof.Machine

/-! ## What a command's computation depends on -/

/-- A command's computation looks at the parameters, DMEM and the dictionary alone; its operands come from the latched
record. -/
theorem bodyOf_congr {s t : State} (hcfg : t.cfg = s.cfg) (hdmem : t.dmem = s.dmem) (hdict : t.dict = s.dict)
    (hfreq : t.freq = s.freq) (hvalid : t.dictValid = s.dictValid) (i : Instr) (L : Latch) :
    bodyOf i t L = bodyOf i s L := by
  have hread (addr len : Word) : readSource t addr len = readSource s addr len := by
    simp only [readSource, hcfg, hdmem]
  have hdst (n : Nat) : checkDst t L n = checkDst s L n := by simp only [checkDst, hcfg]
  have hreq : requireDict t = requireDict s := by simp only [requireDict, hvalid]
  cases i with
  | nop => rfl
  | hexenc => simp only [bodyOf, hexencBody, srcA, hread, hdst]
  | hexdec => simp only [bodyOf, hexdecBody, srcA, hread, hdst]
  | xor => simp only [bodyOf, xorBody, srcA, srcB, hread, hdst]
  | repxor => simp only [bodyOf, repxorBody, srcA, srcB, hread, hdst]
  | hamming => simp only [bodyOf, hammingBody, srcA, srcB, hread]
  | b64enc => simp only [bodyOf, b64encBody, srcA, hread, hdst]
  | b64dec => simp only [bodyOf, b64decBody, srcA, hread, hdst]
  | dictload => simp only [bodyOf, dictloadBody, srcA, hread, hvalid, hcfg]
  | wordhits => simp only [bodyOf, wordhitsBody, srcA, hread, hreq, hdict]
  | letterscore => simp only [bodyOf, letterscoreBody, srcA, hread, hreq, hfreq]
  | breakscore => simp only [bodyOf, breakscoreBody, srcA, hread, hdst, hreq, hfreq]
  | breakhits => simp only [bodyOf, breakhitsBody, srcA, hread, hdst, hreq, hdict]
  | reset => rfl

/-! ## Completion with a recorded model fault -/

/-- With a model fault recorded the engine has no step (40_command_cycle.md R142). -/
theorem State.complete_of_modelFault {s : State} {f : ModelFault} (h : s.modelFault = some f)
    (body : State → Latch → Cmd Report) : s.complete body = .fault (.model f) := by
  simp only [State.complete, h]

theorem exec_of_modelFault {s : State} {f : ModelFault} (h : s.modelFault = some f) (i : Instr) :
    exec i s = .fault (.model f) := by
  rw [exec_eq_complete, State.complete_of_modelFault h]

/-! ## O28: a loaded dictionary -/

/-- Settles O28: only RESET clears the dictionary, and only DICTLOAD brings one, which it refuses while one is loaded. -/
theorem loadedDictionaryIsImmutable : Obligations.LoadedDictionaryIsImmutable := by
  intro i s t hi hv h
  rw [exec_eq_complete] at h
  obtain ⟨L, -, ⟨r, hok, rfl⟩ | ⟨c, -, rfl⟩ | ⟨f, -, rfl⟩⟩ := State.complete_cases h
  · have hnone : r.dict = none := by
      rcases bodyOf_dict hok with hnone | ⟨-, hfalse, -⟩
      · exact hnone
      · rw [hv] at hfalse; cases hfalse
    rw [State.applyOk_finish s L r (bodyOf_reset hi hok) hnone]
    exact ⟨rfl, rfl, hv⟩
  · exact ⟨rfl, rfl, hv⟩
  · exact ⟨rfl, rfl, hv⟩

/-! ## O29: the operand registers while a command is in flight -/

/-- The operand registers (10_state.md R43 to R47). -/
inductive RegName.IsOperand : RegName → Prop
  | aAddr : IsOperand .aAddr
  | aLen : IsOperand .aLen
  | bAddr : IsOperand .bAddr
  | bLen : IsOperand .bLen
  | dAddr : IsOperand .dAddr

theorem RegName.exists_operand_of_offset {off : Nat} (h : off ∈ [0x00C, 0x010, 0x014, 0x018, 0x01C]) :
    ∃ r : RegName, r.IsOperand ∧ r.offset = off := by
  simp only [List.mem_cons, List.not_mem_nil, or_false] at h
  rcases h with rfl | rfl | rfl | rfl | rfl
  · exact ⟨_, .aAddr, rfl⟩
  · exact ⟨_, .aLen, rfl⟩
  · exact ⟨_, .bAddr, rfl⟩
  · exact ⟨_, .bLen, rfl⟩
  · exact ⟨_, .dAddr, rfl⟩

section
variable {r : RegName} (hr : r.IsOperand) (s : State) (v : Word)
include hr

theorem State.writeReg_operand_modelFault : (s.writeReg r v).modelFault = s.modelFault := by cases hr <;> rfl

theorem State.writeReg_operand_latched : (s.writeReg r v).latched = s.latched := by cases hr <;> rfl

theorem bodyOf_writeReg_operand (i : Instr) (L : Latch) : bodyOf i (s.writeReg r v) L = bodyOf i s L := by
  cases hr <;> apply bodyOf_congr <;> rfl

/-- RESET clears the operand registers whatever was written to them. -/
theorem State.resetRegs_writeReg_operand : (s.writeReg r v).resetRegs = s.resetRegs := by cases hr <;> rfl

theorem State.failed_writeReg_operand (c : ErrCode) : (s.writeReg r v).failed c = (s.failed c).writeReg r v := by
  cases hr <;> rfl

theorem State.recordFault_writeReg_operand (f : ModelFault) :
    (s.writeReg r v).recordFault f = (s.recordFault f).writeReg r v := by
  cases hr <;> rfl

theorem State.applyOk_finish_writeReg_operand (L : Latch) {rep : Report} (hreset : rep.reset = false) :
    ((s.writeReg r v).applyOk L rep).finish = ((s.applyOk L rep).finish).writeReg r v := by
  cases hd : rep.dict with
  | none => rw [State.applyOk_finish _ _ _ hreset hd, State.applyOk_finish _ _ _ hreset hd]; cases hr <;> rfl
  | some d =>
    rw [State.applyOk_finish_dict _ _ _ d hreset hd, State.applyOk_finish_dict _ _ _ d hreset hd]; cases hr <;> rfl

/-- A write of an operand register and a command's completion commute: the command sees its latched record only. -/
theorem exec_writeReg_operand {i : Instr} (hi : i ≠ .reset) (hbusy : s.busy = true) :
    exec i (s.writeReg r v) = mapNext (fun t => t.writeReg r v) (exec i s) := by
  have hfault' := State.writeReg_operand_modelFault hr s v
  cases hfault : s.modelFault with
  | some f => rw [exec_of_modelFault hfault, exec_of_modelFault (hfault'.trans hfault)]; rfl
  | none =>
    obtain ⟨L, hL⟩ := Option.isSome_iff_exists.1 hbusy
    have hrun : s.Running L := ⟨hfault, hL⟩
    have hrun' : (s.writeReg r v).Running L :=
      ⟨hfault'.trans hfault, (State.writeReg_operand_latched hr s v).trans hL⟩
    have hbody := bodyOf_writeReg_operand hr s v i L
    rw [exec_eq_complete, exec_eq_complete]
    rcases hb : bodyOf i s L with ⟨c | f⟩ | rep
    · rw [State.complete_of_err hrun hb, State.complete_of_err hrun' (hbody.trans hb),
        State.failed_writeReg_operand hr]
      rfl
    · rw [State.complete_of_fault hrun hb, State.complete_of_fault hrun' (hbody.trans hb),
        State.recordFault_writeReg_operand hr]
      rfl
    · rw [State.complete_of_ok hrun hb, State.complete_of_ok hrun' (hbody.trans hb),
        State.applyOk_finish_writeReg_operand hr s v L (bodyOf_reset hi hb)]
      rfl

theorem exec_reset_writeReg_operand (hbusy : s.busy = true) : exec .reset (s.writeReg r v) = exec .reset s := by
  have hfault' := State.writeReg_operand_modelFault hr s v
  cases hfault : s.modelFault with
  | some f => rw [exec_of_modelFault hfault, exec_of_modelFault (hfault'.trans hfault)]
  | none =>
    obtain ⟨L, hL⟩ := Option.isSome_iff_exists.1 hbusy
    have hL' := (State.writeReg_operand_latched hr s v).trans hL
    rw [exec_reset, exec_reset, State.complete_of_ok ⟨hfault, hL⟩ rfl,
      State.complete_of_ok ⟨hfault'.trans hfault, hL'⟩ rfl, State.applyOk_finish_reset _ _ _ rfl,
      State.applyOk_finish_reset _ _ _ rfl, State.resetRegs_writeReg_operand hr]

end

/-- Settles O29: the write is one of an operand register, with which every completion but RESET's commutes. -/
theorem operandWritesDoNotDisturbCommand : Obligations.OperandWritesDoNotDisturbCommand := by
  intro s off v hoff hbusy
  obtain ⟨r, hr, rfl⟩ := RegName.exists_operand_of_offset hoff
  simp only [State.hostAccess_write_reg]
  exact ⟨fun i hi => exec_writeReg_operand hr s v hi hbusy, exec_reset_writeReg_operand hr s v hbusy⟩

/-! ## O32: the recorded model fault -/

/-- From s to t the parameters stay (00_scope.md R8), and so does a model fault recorded in s (10_state.md R62). -/
structure State.KeepsRecord (s t : State) : Prop where
  cfg : t.cfg = s.cfg
  fault : ∀ f, s.modelFault = some f → t.modelFault = some f

theorem State.KeepsRecord.of_eq {s t : State} (hcfg : t.cfg = s.cfg := by rfl)
    (hfault : t.modelFault = s.modelFault := by rfl) : s.KeepsRecord t :=
  ⟨hcfg, fun _ hf => hfault.trans hf⟩

theorem State.KeepsRecord.of_none {s t : State} (hcfg : t.cfg = s.cfg) (hnone : s.modelFault = none) :
    s.KeepsRecord t :=
  ⟨hcfg, fun f hf => by rw [hnone] at hf; cases hf⟩

/-- The first fault is kept when another occurs (log 10). -/
theorem State.recordFault_keepsRecord (s : State) (g : ModelFault) : s.KeepsRecord (s.recordFault g) :=
  ⟨rfl, fun f hf => by simp [State.recordFault, hf]⟩

@[simp] theorem State.applyOk_cfg (s : State) (L : Latch) (r : Report) : (s.applyOk L r).cfg = s.cfg := by
  unfold State.applyOk
  split <;> simp

/-- A completion happens only where no fault is recorded, so it has only the parameters to keep. -/
theorem State.complete_keepsRecord {s t : State} {body : State → Latch → Cmd Report}
    (h : s.complete body = .next t) : s.KeepsRecord t := by
  obtain ⟨L, ⟨hnone, -⟩, ⟨r, -, rfl⟩ | ⟨c, -, rfl⟩ | ⟨f, -, rfl⟩⟩ := State.complete_cases h
  · exact .of_none (by simp) hnone
  · exact .of_eq
  · exact s.recordFault_keepsRecord f

theorem State.writeReg_keepsRecord (s : State) (r : RegName) (v : Word) : s.KeepsRecord (s.writeReg r v) := by
  rcases s.writeReg_cases r v with
    ⟨-, -, e⟩ | ⟨-, -, e⟩ | ⟨-, -, e⟩ | ⟨-, e⟩ | ⟨-, e⟩ | ⟨-, e⟩ | ⟨-, e⟩ | ⟨-, e⟩ | e <;>
    rw [e] <;> exact .of_eq

theorem State.hostAccess_keepsRecord (s : State) (a : Access) : s.KeepsRecord (s.hostAccess a) := by
  rcases s.hostAccess_cases a with ⟨_, _, e, -, -⟩ | ⟨f, e⟩ | ⟨r, v, e⟩ | ⟨_, _, -, -, e⟩
  · rw [e]; exact .of_eq
  · rw [e]; exact s.recordFault_keepsRecord f
  · rw [e]; exact s.writeReg_keepsRecord r v
  · rw [e]; exact .of_eq

theorem State.hostStep_keepsRecord {s t : State} (h : s.hostStep = .next t) : s.KeepsRecord t := by
  rcases State.hostStep_cases h with ⟨a, -, rfl⟩ | ⟨_, _, rfl, -⟩
  · exact ⟨(s.hostAccess_keepsRecord a).cfg, (s.hostAccess_keepsRecord a).fault⟩
  · exact .of_eq

theorem step_keepsRecord {s t : State} (h : step s = .next t) : s.KeepsRecord t := by
  suffices hpop : s.popTurn.KeepsRecord t from ⟨hpop.cfg, hpop.fault⟩
  rcases step_cases s with ⟨-, e⟩ | ⟨-, e⟩ | ⟨-, e⟩ | ⟨-, -, e⟩ | ⟨L, i, -, -, -, e⟩ | ⟨L, err, -, -, -, e⟩ <;>
    rw [e] at h
  · exact State.hostStep_keepsRecord h
  · cases h; exact .of_eq
  · cases h; exact .of_eq
  · cases h; exact .of_eq
  · rw [exec_eq_complete] at h; exact State.complete_keepsRecord h
  · exact State.complete_keepsRecord h

/-- Settles O32: every agent's move keeps the record, and with a fault recorded the engine answers it. -/
theorem recordedModelFaultIsNeverCleared : Obligations.RecordedModelFaultIsNeverCleared :=
  ⟨fun _ _ h => ⟨(step_keepsRecord h).cfg, (step_keepsRecord h).fault⟩, fun i _ _ hf => exec_of_modelFault hf i⟩

end Sys2Proof.Machine
end

section
/-! PROOFS. Obligations O40, O5 and O33 to O36 (10_state.md R33 to R54, 20_memory.md R82, R83): what host accesses to
the register window and to DMEM do. First the value of words put together from parts; then the DMEM window while
BUSY = 0; then reads of a defined register, reads R54 leaves open, and writes a register ignores. -/

namespace Sys2Proof.Machine

/-! ## Words put together from parts -/

/-- The value of two words put side by side. -/
theorem toNat_append_eq_add {m n : Nat} (x : BitVec m) (y : BitVec n) :
    (x ++ y).toNat = 2 ^ n * x.toNat + y.toNat := by
  rw [BitVec.toNat_append, Nat.shiftLeft_eq, Nat.mul_comm, Nat.two_pow_add_eq_or_of_lt y.isLt]

theorem leWord_toNat (b0 b1 b2 b3 : Byte) :
    (leWord b0 b1 b2 b3).toNat = b0.toNat + 256 * b1.toNat + 65536 * b2.toNat + 16777216 * b3.toNat := by
  simp only [leWord, toNat_append_eq_add]
  omega

theorem extractLsb'_ofNat {h : Nat} (hh : h < 2 ^ 32) (k : Nat) :
    (BitVec.ofNat 32 h).extractLsb' k 8 = BitVec.ofNat 8 (h / 2 ^ k) := by
  apply BitVec.eq_of_toNat_eq
  rw [BitVec.extractLsb'_toNat, BitVec.toNat_ofNat, BitVec.toNat_ofNat, Nat.mod_eq_of_lt hh, Nat.shiftRight_eq_div_pow]

/-- A BREAKHITS record, byte by byte (45_xor_breaker.md R302). -/
theorem hitRecord_eq (k : Byte) {h : Nat} (hh : h < 2 ^ 32) :
    hitRecord (k, h) = [k, BitVec.ofNat 8 h, BitVec.ofNat 8 (h / 256), BitVec.ofNat 8 (h / 65536),
      BitVec.ofNat 8 (h / 16777216)] := by
  simp only [hitRecord, leBytes, extractLsb'_ofNat hh]
  norm_num

theorem statusWord_toNat (busy done err dictValid found overrun : Bool) (e : BitVec 4) :
    (statusWord busy done err dictValid found overrun e).toNat =
      busy.toNat + 2 * done.toNat + 4 * err.toNat + 8 * dictValid.toNat + 16 * found.toNat + 32 * overrun.toNat
        + 256 * e.toNat := by
  simp only [statusWord, toNat_append_eq_add, BitVec.toNat_ofBool, BitVec.toNat_ofNat]
  omega

/-! ## O40: DMEM accesses while BUSY = 0 -/

section
variable {s : State} {a : Nat} (hb : s.busy = false)
include hb

theorem State.hostAccess_dmem_write8 (ha : a < s.cfg.dmemSize) (v : Word) :
    s.hostAccess { kind := .write, offset := 0x10000 + a, width := .w8, data := v } =
      { s with dmem := s.dmem.write a (v.extractLsb' 0 8) } := by
  rw [State.hostAccess_dmem _ _ _ _ _ ha]
  simp [State.dmemWindow, hb]

theorem State.hostAccess_dmem_read8 (ha : a < s.cfg.dmemSize) (v : Word) :
    s.hostAccess { kind := .read, offset := 0x10000 + a, width := .w8, data := v } = s.hostMemRead8 a := by
  rw [State.hostAccess_dmem _ _ _ _ _ ha]
  simp [State.dmemWindow, hb]

theorem State.hostAccess_dmem_write32 (hal : a % 4 = 0) (ha : a + 4 ≤ s.cfg.dmemSize) (v : Word) :
    s.hostAccess { kind := .write, offset := 0x10000 + a, width := .w32, data := v } =
      { s with dmem := s.dmem.writeBytes a (leBytes v) } := by
  rw [State.hostAccess_dmem _ _ _ _ _ (by omega)]
  simp [State.dmemWindow, hb, hal, ha]

theorem State.hostAccess_dmem_read32 (hal : a % 4 = 0) (ha : a + 4 ≤ s.cfg.dmemSize) (v : Word) :
    s.hostAccess { kind := .read, offset := 0x10000 + a, width := .w32, data := v } = s.hostMemRead32 a := by
  rw [State.hostAccess_dmem _ _ _ _ _ (by omega)]
  simp [State.dmemWindow, hb, hal, ha]

end

/-- A read after a 32-bit write: the least significant byte stands first. -/
theorem Memory.read_write_leBytes (m : Memory) (a x : Nat) (v : Word) :
    (m.writeBytes a (leBytes v)).read x =
      if x = a then some (v.extractLsb' 0 8)
      else if x = a + 1 then some (v.extractLsb' 8 8)
      else if x = a + 2 then some (v.extractLsb' 16 8)
      else if x = a + 3 then some (v.extractLsb' 24 8)
      else m.read x := by
  rw [Memory.read_writeBytes, show (leBytes v).length = 4 from rfl]
  by_cases hx : a ≤ x ∧ x < a + 4
  · obtain rfl | rfl | rfl | rfl : x = a ∨ x = a + 1 ∨ x = a + 2 ∨ x = a + 3 := by omega
    all_goals simp [leBytes]
  · rw [if_neg hx, if_neg (by omega), if_neg (by omega), if_neg (by omega), if_neg (by omega)]

/-- Settles O40: a store and a load of the DMEM window, byte by byte, and the bytes of a hit count. -/
theorem littleEndianEverywhere : Obligations.LittleEndianEverywhere := by
  refine ⟨fun s a v hb ha => ?_, fun s a b hb ha h0 => ?_, fun s a v hb hal ha => ?_,
    fun s a b0 b1 b2 b3 hb hal ha h0 h1 h2 h3 => ?_, fun k h hh => hitRecord_eq k hh⟩
  · exact ⟨_, State.hostAccess_dmem_write8 hb ha v, fun x => Memory.read_write _ _ _ _⟩
  · rw [State.hostAccess_dmem_read8 hb ha, BitVec.ofNat_toNat]
    simp only [State.hostMemRead8, h0]
  · exact ⟨_, State.hostAccess_dmem_write32 hb hal ha v, fun x => Memory.read_write_leBytes _ _ _ _⟩
  · rw [State.hostAccess_dmem_read32 hb hal ha, ← leWord_toNat, BitVec.ofNat_toNat, BitVec.setWidth_eq]
    simp only [State.hostMemRead32, h0, h1, h2, h3]

/-! ## O5: the host's turn -/

/-- Settles O5: taking the turn off the schedule leaves the host at the same statement. -/
theorem stepRunsHostAccess : Obligations.StepRunsHostAccess := by
  intro s a hturn hcur
  have hcur' : s.popTurn.host.current = some (.access a) := hcur
  rw [step_of_host hturn, State.hostStep, hcur']

/-! ## Reads of the register window -/

theorem State.dictloadInFlight_of_idle {s : State} (hb : s.busy = false) : s.dictloadInFlight = false := by
  have hL : s.latched = none := by simpa [State.busy] using hb
  simp only [State.dictloadInFlight, hL]

theorem State.dictloadInFlight_iff {s : State} {L : Latch} (hL : s.latched = some L) :
    s.dictloadInFlight = true ↔ decode L.cmd = .ok .dictload := by
  simp only [State.dictloadInFlight, hL, decide_eq_true_eq]
  cases decode L.cmd <;> simp [Except.toOption]

/-- While BUSY = 0 every register reads what it holds. -/
theorem State.readIsFree_of_idle {s : State} (hb : s.busy = false) (r : RegName) : s.readIsFree r = false := by
  cases r <;> simp only [State.readIsFree, hb, State.dictloadInFlight_of_idle hb]

theorem State.regRead_of_defined {s : State} {r : RegName} (h : s.readIsFree r = false) :
    s.regRead r = s.regValue r := by
  simp [State.regRead, h]

theorem State.regRead_of_free {s : State} {r : RegName} (h : s.readIsFree r = true) (hr : r ≠ .status) :
    s.regRead r = Config.freeWord s.draws := by
  simp [State.regRead, h, hr]

/-- A read whose value is defined records that value and changes nothing else. -/
theorem State.hostAccess_read_defined {s : State} {r : RegName} (h : s.readIsFree r = false) :
    s.hostAccess { kind := .read, offset := r.offset, width := .w32 } = s.logRead r.offset .w32 (s.regValue r) := by
  rw [State.hostAccess_read_reg, State.regRead_of_defined h, h]
  rfl

/-- A read R54 leaves open uses a draw up. -/
theorem State.hostAccess_read_free {s : State} {r : RegName} (h : s.readIsFree r = true) :
    s.hostAccess { kind := .read, offset := r.offset, width := .w32 } =
      { s.logRead r.offset .w32 (s.regRead r) with draws := s.draws + 1 } := by
  rw [State.hostAccess_read_reg, h]
  rfl

/-! ## Writes the register window ignores -/

/-- The registers no write changes (10_state.md R33, R48 to R52). -/
inductive RegName.IsReadOnly : RegName → Prop
  | id : IsReadOnly .id
  | outLen : IsReadOnly .outLen
  | result : IsReadOnly .result
  | key : IsReadOnly .key
  | dictLen : IsReadOnly .dictLen
  | freq (b : Byte) : IsReadOnly (.freq b)

theorem State.hostAccess_write_readOnly {r : RegName} (hr : r.IsReadOnly) (s : State) (v : Word) :
    s.hostAccess { kind := .write, offset := r.offset, width := .w32, data := v } = s := by
  rw [State.hostAccess_write_reg]
  cases hr <;> rfl

/-- The read-only registers above D_ADDR fill these two ranges. -/
theorem RegName.exists_readOnly_of_offset {off : Nat} (hal : off % 4 = 0)
    (h : (0x020 ≤ off ∧ off ≤ 0x02C) ∨ (0x400 ≤ off ∧ off ≤ 0x7FC)) : ∃ r : RegName, r.IsReadOnly ∧ r.offset = off := by
  rcases h with hlow | hfreq
  · obtain rfl | rfl | rfl | rfl : off = 0x020 ∨ off = 0x024 ∨ off = 0x028 ∨ off = 0x02C := by omega
    · exact ⟨_, .outLen, rfl⟩
    · exact ⟨_, .result, rfl⟩
    · exact ⟨_, .key, rfl⟩
    · exact ⟨_, .dictLen, rfl⟩
  · refine ⟨_, .freq (BitVec.ofNat 8 ((off - 0x400) / 4)), ?_⟩
    simp only [RegName.offset, BitVec.toNat_ofNat]
    omega

/-- A reserved offset reads 0 (10_state.md R53). -/
theorem State.hostAccess_read_reserved {off : Nat} (hal : off % 4 = 0)
    (h : (0x030 ≤ off ∧ off ≤ 0x3FC) ∨ (0x800 ≤ off ∧ off ≤ 0xFFC)) (s : State) :
    s.hostAccess { kind := .read, offset := off, width := .w32 } = s.logRead off .w32 0#32 := by
  rw [State.hostAccess_window _ _ _ _ (by omega) hal]
  simp only [State.hostRegRead, regAt_reserved h]

theorem State.hostAccess_write_reserved {off : Nat} (hal : off % 4 = 0)
    (h : (0x030 ≤ off ∧ off ≤ 0x3FC) ∨ (0x800 ≤ off ∧ off ≤ 0xFFC)) (s : State) (v : Word) :
    s.hostAccess { kind := .write, offset := off, width := .w32, data := v } = s := by
  rw [State.hostAccess_window _ _ _ _ (by omega) hal]
  simp only [State.hostRegWrite, regAt_reserved h]

/-! ## O33 to O36: the register window -/

/-- Settles O33: ID's value is no field of the state. -/
theorem idReadsConstant : Obligations.IdReadsConstant :=
  ⟨rfl, fun s v => ⟨State.regRead_of_defined rfl, State.hostAccess_read_defined (r := .id) rfl,
    State.hostAccess_write_readOnly .id s v⟩⟩

/-- Settles O34: each offset of the window is a register's, read-only or writable, or reserved. -/
theorem reservedAndReadOnlyRegisters : Obligations.ReservedAndReadOnlyRegisters := by
  refine ⟨fun s off v hal => ⟨fun hres => ?_, fun hro => ?_⟩, fun s v => ?_, fun s => ?_, fun s hb => ⟨?_, fun b => ?_⟩⟩
  · exact ⟨State.hostAccess_read_reserved hal hres s, State.hostAccess_write_reserved hal hres s v⟩
  · obtain ⟨r, hr, rfl⟩ := RegName.exists_readOnly_of_offset hal hro
    exact State.hostAccess_write_readOnly hr s v
  · exact ⟨s.hostAccess_write_reg .aAddr v, s.hostAccess_write_reg .aLen v, s.hostAccess_write_reg .bAddr v,
      s.hostAccess_write_reg .bLen v, s.hostAccess_write_reg .dAddr v⟩
  · simp only [List.forall_mem_cons, List.not_mem_nil, false_implies, implies_true, and_true]
    exact ⟨State.hostAccess_read_defined (r := .cmd) rfl, State.hostAccess_read_defined (r := .aAddr) rfl,
      State.hostAccess_read_defined (r := .aLen) rfl, State.hostAccess_read_defined (r := .bAddr) rfl,
      State.hostAccess_read_defined (r := .bLen) rfl, State.hostAccess_read_defined (r := .dAddr) rfl⟩
  · simp only [List.forall_mem_cons, List.not_mem_nil, false_implies, implies_true, and_true, BitVec.ofNat_toNat]
    have hread (r : RegName) := State.hostAccess_read_defined (State.readIsFree_of_idle hb r)
    exact ⟨hread .outLen, hread .result, hread .key, hread .dictLen⟩
  · exact State.hostAccess_read_defined (State.readIsFree_of_idle hb (.freq b))

/-- Settles O35: the fields by their weights in the word; the accesses are those of the register at 0x008. -/
theorem statusRegisterFieldsAndWrite : Obligations.StatusRegisterFieldsAndWrite := by
  refine ⟨rfl, statusWord_toNat, fun s hb => ?_, fun s v => s.hostAccess_write_reg .status v⟩
  have hread := State.hostAccess_read_defined (State.readIsFree_of_idle hb .status)
  rwa [State.regValue, hb] at hread

/-- Settles O36: with a command in flight the results and STATUS are free, and DICT_LEN and FREQ exactly for DICTLOAD. -/
theorem busyReadsAreFreeDraws : Obligations.BusyReadsAreFreeDraws := by
  intro s L hL
  have hbusy : s.busy = true := by simp only [State.busy, hL, Option.isSome_some]
  have hload := State.dictloadInFlight_iff hL
  refine ⟨?_, ?_, ?_, fun b => ⟨fun hd => ?_, fun hd => ?_⟩, ?_, fun hd b => ?_⟩
  · simp only [List.forall_mem_cons, List.not_mem_nil, false_implies, implies_true, and_true]
    exact ⟨State.regRead_of_free hbusy (by decide), State.regRead_of_free hbusy (by decide),
      State.regRead_of_free hbusy (by decide)⟩
  · have hfree : s.readIsFree .status = true := hbusy
    simp only [State.regRead, hfree, if_true, State.busyStatus, hbusy, hload]
  · simp only [List.forall_mem_cons, List.not_mem_nil, false_implies, implies_true, and_true]
    refine ⟨?_, ?_, ?_, ?_, ?_, ?_, ?_⟩ <;> exact State.regRead_of_defined rfl
  · exact ⟨State.regRead_of_free (hload.2 hd) (by decide), State.regRead_of_free (hload.2 hd) nofun⟩
  · have hnot : s.dictloadInFlight = false := Bool.eq_false_iff.2 (mt hload.1 hd)
    exact ⟨State.regRead_of_defined hnot, State.regRead_of_defined hnot⟩
  · simp only [List.forall_mem_cons, List.not_mem_nil, false_implies, implies_true, and_true]
    refine ⟨?_, ?_, ?_, ?_⟩ <;> exact State.hostAccess_read_free hbusy
  · simp only [List.forall_mem_cons, List.not_mem_nil, false_implies, implies_true, and_true]
    exact ⟨State.hostAccess_read_free (hload.2 hd), State.hostAccess_read_free (hload.2 hd)⟩

end Sys2Proof.Machine
end

section
/-! PROOFS. Obligation O26 (40_command_cycle.md R144, R145, R148, 45_xor_breaker.md R296): what a completion leaves
unchanged. First what every completion but RESET's and DICTLOAD's keeps; then the bytes a success writes. -/

namespace Sys2Proof.Machine

/-! ## What a completion keeps -/

/-- All that a completion which neither resets nor loads a dictionary can leave. -/
theorem exec_cases {i : Instr} {s t : State} {L : Latch} (hreset : i ≠ .reset) (hload : i ≠ .dictload)
    (hL : s.latched = some L) (h : exec i s = .next t) :
    (∃ f, t = s.recordFault f) ∨ (∃ c, t = s.failed c) ∨
    (∃ r, bodyOf i s L = .ok r ∧ t = s.succeeded L (r.out.getD []) r.result r.key r.found) := by
  rw [exec_eq_complete] at h
  obtain ⟨L', ⟨-, hL'⟩, ⟨r, hok, ht⟩ | ⟨c, -, ht⟩ | ⟨f, -, ht⟩⟩ := State.complete_cases h
  · obtain rfl : L' = L := Option.some.inj (hL'.symm.trans hL)
    have hdict : r.dict = none := (bodyOf_dict hok).resolve_right fun ⟨hi, _⟩ => hload hi
    exact .inr (.inr ⟨r, hok, ht.trans (State.applyOk_finish s L' r (bodyOf_reset hreset hok) hdict)⟩)
  · exact .inr (.inl ⟨c, ht⟩)
  · exact .inl ⟨f, ht⟩

/-- From s to t the operand registers stay, the dictionary, OVERRUN, the parameters and the environment
(40_command_cycle.md R144, R145, R148). -/
def State.KeepsFrame (s t : State) : Prop :=
  t.aAddr = s.aAddr ∧ t.aLen = s.aLen ∧ t.bAddr = s.bAddr ∧ t.bLen = s.bLen ∧ t.dAddr = s.dAddr ∧
  t.dict = s.dict ∧ t.freq = s.freq ∧ t.dictValid = s.dictValid ∧ t.overrun = s.overrun ∧
  t.cfg = s.cfg ∧ t.host = s.host ∧ t.turns = s.turns ∧ t.draws = s.draws

theorem exec_keepsFrame {i : Instr} {s t : State} {L : Latch} (hreset : i ≠ .reset) (hload : i ≠ .dictload)
    (hL : s.latched = some L) (h : exec i s = .next t) : s.KeepsFrame t := by
  rcases exec_cases hreset hload hL h with ⟨f, rfl⟩ | ⟨c, rfl⟩ | ⟨r, -, rfl⟩
  · simp [State.KeepsFrame]
  · simp [State.KeepsFrame, State.failed]
  · simp [State.KeepsFrame, State.succeeded]

/-! ## The bytes a success writes -/

/-- A success changes the bytes of its output's range only, which OUT_LEN measures while it fits 32 bits. -/
theorem State.succeeded_dmem_read {s : State} {L : Latch} {out : Bytes} {n : Nat} {k : Byte} {b : Bool} {a : Nat}
    (hlen : out.length < 2 ^ 32)
    (ha : ¬ (L.dAddr.toNat ≤ a ∧ a < L.dAddr.toNat + (s.succeeded L out n k b).outLen.toNat)) :
    (s.succeeded L out n k b).dmem.read a = s.dmem.read a := by
  have hout : (s.succeeded L out n k b).outLen.toNat = out.length := Nat.mod_eq_of_lt hlen
  rw [hout] at ha
  exact (Memory.read_writeBytes _ _ _ _).trans (if_neg ha)

/-- An output checked against DMEM fits OUT_LEN (00_scope.md R8: DMEM_SIZE is at most 65536). -/
theorem bodyOf_out_length_lt {i : Instr} {s : State} {L : Latch} {r : Report} (hcfg : s.cfg.wf = true)
    (h : bodyOf i s L = .ok r) : (r.out.getD []).length < 2 ^ 32 := by
  have hsize : s.cfg.dmemSize ≤ 65536 := by
    simp only [Params.wf, Bool.and_eq_true, decide_eq_true_eq] at hcfg
    obtain ⟨⟨-, hsize⟩, -⟩ := hcfg
    exact hsize
  cases hout : r.out with
  | none => simp
  | some out =>
    have hin : L.dAddr.toNat + out.length ≤ s.cfg.dmemSize := bodyOf_out_inside h out hout
    simp only [Option.getD_some]
    omega

/-- A BREAKSCORE that finds no result has no output (45_xor_breaker.md R296). -/
theorem breakscoreBody_out_of_not_found {s : State} {L : Latch} {r : Report} (h : breakscoreBody s L = .ok r)
    (hfound : r.found = false) : r.out = none := by
  obtain ⟨c, -, -, ⟨-, rfl⟩ | ⟨b, -, -, rfl⟩⟩ := breakscoreBody_ok h
  · rfl
  · cases hfound

/-- Settles O26: a stop on a hole and a failure leave DMEM alone, a success writes its output alone. -/
theorem storingCommandsFrame : Obligations.StoringCommandsFrame := by
  intro i hi s t L hcfg hL h
  have hreset : i ≠ .reset := by rintro rfl; exact absurd hi (by decide)
  have hload : i ≠ .dictload := by rintro rfl; exact absurd hi (by decide)
  have hframe := exec_keepsFrame hreset hload hL h
  rcases exec_cases hreset hload hL h with ⟨f, rfl⟩ | ⟨c, rfl⟩ | ⟨r, hok, rfl⟩
  · have hbusy : (s.recordFault f).busy = true := by simp [State.busy, hL]
    exact ⟨fun _ _ => rfl, fun _ => rfl, fun hidle => absurd (hbusy.symm.trans hidle) nofun, hframe⟩
  · exact ⟨fun _ _ => rfl, fun _ => rfl, fun _ _ => ⟨rfl, rfl⟩, hframe⟩
  · refine ⟨fun _ ha => State.succeeded_dmem_read (bodyOf_out_length_lt hcfg hok) ha, ?_, fun _ => ?_, hframe⟩
    · rintro (hbusy | herr)
      · cases hbusy
      · cases herr
    · rintro (herr | ⟨rfl, hfound⟩)
      · cases herr
      · have hout : r.out = none := breakscoreBody_out_of_not_found hok hfound
        simp [State.succeeded, hout, Memory.writeBytes]

end Sys2Proof.Machine
end

section
/-! PROOFS. Obligations O37, O39, O38 and O41 (20_memory.md R81, R82, R89, R90, R97): the model faults of host accesses,
and what a read can do. First the windows for any access and the shapes of a supported one; then one obligation after
the other. -/

namespace Sys2Proof.Machine

/-! ## The windows of the host address map -/

section
variable {s : State} {a : Access}

theorem State.hostAccess_eq_regWindow (ho : a.offset < 0x1000) : s.hostAccess a = s.regWindow a := by
  rw [State.hostAccess, if_pos ho]

theorem State.hostAccess_eq_dmemWindow (hlo : 0x10000 ≤ a.offset) (hhi : a.offset < 0x10000 + s.cfg.dmemSize) :
    s.hostAccess a = s.dmemWindow a (a.offset - 0x10000) := by
  rw [State.hostAccess, if_neg (by omega), if_pos ⟨hlo, hhi⟩]

theorem State.hostAccess_unmapped (hreg : 0x1000 ≤ a.offset)
    (hdmem : a.offset < 0x10000 ∨ 0x10000 + s.cfg.dmemSize ≤ a.offset) :
    s.hostAccess a = s.recordFault .hostBusError := by
  rw [State.hostAccess, if_neg (by omega), if_neg (by omega)]

/-- Any access to the DMEM window while BUSY = 1 is a race (20_memory.md R97). -/
theorem State.hostAccess_race (hb : s.busy = true) (hlo : 0x10000 ≤ a.offset)
    (hhi : a.offset < 0x10000 + s.cfg.dmemSize) : s.hostAccess a = s.recordFault .hostRace := by
  rw [State.hostAccess_eq_dmemWindow hlo hhi, State.dmemWindow, if_pos hb]

end

/-- The three accesses 20_memory.md R82 supports. -/
theorem Access.supported_cases {p : Params} {a : Access} (h : a.supported p = true) :
    (∃ k off v, a = { kind := k, offset := off, width := .w32, data := v } ∧ off < 0x1000 ∧ off % 4 = 0) ∨
    (∃ k x v, a = { kind := k, offset := 0x10000 + x, width := .w8, data := v } ∧ x < p.dmemSize) ∨
    (∃ k x v, a = { kind := k, offset := 0x10000 + x, width := .w32, data := v } ∧ x % 4 = 0 ∧
      x + 4 ≤ p.dmemSize) := by
  obtain ⟨k, off, w, v⟩ := a
  cases w with
  | w8 =>
    simp only [Access.supported, Bool.and_eq_true, decide_eq_true_eq] at h
    obtain ⟨x, rfl⟩ := Nat.exists_eq_add_of_le h.1
    exact .inr (.inl ⟨k, x, v, rfl, by omega⟩)
  | w16 => cases h
  | w32 =>
    simp only [Access.supported, Bool.and_eq_true, Bool.or_eq_true, decide_eq_true_eq] at h
    obtain ⟨hal, hreg | ⟨hlo, hhi⟩⟩ := h
    · exact .inl ⟨k, off, v, rfl, hreg, hal⟩
    · obtain ⟨x, rfl⟩ := Nat.exists_eq_add_of_le hlo
      exact .inr (.inr ⟨k, x, v, rfl, by omega, by omega⟩)

/-! ## O39: unsupported accesses -/

/-- While BUSY = 0 the DMEM window refuses every width and alignment that R82 does not support. -/
theorem State.dmemWindow_unsupported {s : State} {a : Access} (hb : s.busy = false)
    (hsup : a.supported s.cfg = false) (hlo : 0x10000 ≤ a.offset) (hhi : a.offset < 0x10000 + s.cfg.dmemSize) :
    s.dmemWindow a (a.offset - 0x10000) = s.recordFault .hostBusError := by
  obtain ⟨k, off, w, v⟩ := a
  simp only at hlo hhi
  cases w with
  | w8 => simp [Access.supported, hlo, hhi] at hsup
  | w16 => simp [State.dmemWindow, hb]
  | w32 =>
    have hbad : ¬ ((off - 0x10000) % 4 = 0 ∧ off - 0x10000 + 4 ≤ s.cfg.dmemSize) := by
      rintro ⟨hal, hin⟩
      have hal' : off % 4 = 0 := by omega
      have hin' : off + 4 ≤ 0x10000 + s.cfg.dmemSize := by omega
      simp [Access.supported, hlo, hal', hin'] at hsup
    cases k <;> simp only [State.dmemWindow, hb, Bool.false_eq_true, if_false, hbad]

/-- Outside the DMEM window an unsupported access is HostBusError whatever BUSY is, inside it while BUSY = 0. -/
theorem State.hostAccess_unsupported {s : State} {a : Access} (hsup : a.supported s.cfg = false)
    (h : s.busy = false ∨ a.offset < 0x10000 ∨ 0x10000 + s.cfg.dmemSize ≤ a.offset) :
    s.hostAccess a = s.recordFault .hostBusError := by
  by_cases hreg : a.offset < 0x1000
  · have hbad : ¬ (a.width = .w32 ∧ a.offset % 4 = 0) := by
      rintro ⟨hw, hal⟩
      simp [Access.supported, hw, hal, hreg] at hsup
    rw [State.hostAccess_eq_regWindow hreg, State.regWindow, if_neg hbad]
  · by_cases hwin : 0x10000 ≤ a.offset ∧ a.offset < 0x10000 + s.cfg.dmemSize
    · have hb : s.busy = false := h.resolve_right (by omega)
      rw [State.hostAccess_eq_dmemWindow hwin.1 hwin.2, State.dmemWindow_unsupported hb hsup hwin.1 hwin.2]
    · exact State.hostAccess_unmapped (by omega) (by omega)

@[simp] theorem State.writeReg_modelFault (s : State) (r : RegName) (v : Word) :
    (s.writeReg r v).modelFault = s.modelFault := by
  rcases s.writeReg_cases r v with
    ⟨-, -, e⟩ | ⟨-, -, e⟩ | ⟨-, -, e⟩ | ⟨-, e⟩ | ⟨-, e⟩ | ⟨-, e⟩ | ⟨-, e⟩ | ⟨-, e⟩ | e <;>
    simp [e]

@[simp] theorem State.hostRegRead_modelFault (s : State) (off : Nat) :
    (s.hostRegRead off).modelFault = s.modelFault := by
  unfold State.hostRegRead
  split <;> simp

@[simp] theorem State.hostRegWrite_modelFault (s : State) (off : Nat) (v : Word) :
    (s.hostRegWrite off v).modelFault = s.modelFault := by
  unfold State.hostRegWrite
  split <;> simp

/-- A 32-bit aligned access to the register window records no model fault, whatever BUSY is. -/
theorem State.hostAccess_window_modelFault (s : State) (k : AccessKind) {off : Nat} (v : Word) (ho : off < 0x1000)
    (hal : off % 4 = 0) :
    (s.hostAccess { kind := k, offset := off, width := .w32, data := v }).modelFault = s.modelFault := by
  rw [State.hostAccess_window _ _ _ _ ho hal]
  cases k with
  | read => exact s.hostRegRead_modelFault off
  | write => exact s.hostRegWrite_modelFault off v

/-- Settles O39: the refusals window by window; a supported write is one of a register, a byte or a word. -/
theorem unsupportedAccessIsHostBusError : Obligations.UnsupportedAccessIsHostBusError := by
  refine fun s a => ⟨State.hostAccess_unsupported, fun hsup hk hb => ?_⟩
  rcases Access.supported_cases hsup with ⟨k, off, v, rfl, ho, hal⟩ | ⟨k, x, v, rfl, hx⟩ | ⟨k, x, v, rfl, hal, hx⟩
  · exact s.hostAccess_window_modelFault k v ho hal
  · obtain rfl : k = .write := hk
    rw [State.hostAccess_dmem_write8 (hb.resolve_right (by simp only; omega)) hx]
  · obtain rfl : k = .write := hk
    rw [State.hostAccess_dmem_write32 (hb.resolve_right (by simp only; omega)) hal hx]

/-! ## O38: accesses while BUSY = 1 -/

/-- Settles O38: the DMEM window looks at BUSY before anything else, the register window not at all. -/
theorem dmemAccessWhileBusyIsHostRace : Obligations.DmemAccessWhileBusyIsHostRace := by
  rintro s ⟨k, off, w, v⟩ hb
  refine ⟨fun hlo hhi => State.hostAccess_race hb hlo hhi, fun ho hw hal => ?_⟩
  obtain rfl : w = .w32 := hw
  exact s.hostAccess_window_modelFault k v ho hal

/-! ## O37: reads -/

/-- From s to t nothing changes but the host's record, the draws and the recorded model fault, and not the first and the
last of these together (20_memory.md R89). -/
def State.OnlyRead (s t : State) : Prop :=
  ∃ (h : HostAgent) (n : Nat) (f : Option ModelFault),
    t = { s with host := h, draws := n, modelFault := f } ∧ (f = s.modelFault ∨ h = s.host)

theorem State.onlyRead_recordFault (s : State) (f : ModelFault) : s.OnlyRead (s.recordFault f) :=
  ⟨s.host, s.draws, _, rfl, .inr rfl⟩

theorem State.onlyRead_logRead (s : State) (off : Nat) (w : AccessWidth) (v : Word) :
    s.OnlyRead (s.logRead off w v) :=
  ⟨_, s.draws, s.modelFault, rfl, .inl rfl⟩

theorem State.onlyRead_takeDraw_logRead (s : State) (free : Bool) (off : Nat) (w : AccessWidth) (v : Word) :
    s.OnlyRead ((s.takeDraw free).logRead off w v) := by
  cases free with
  | false => exact s.onlyRead_logRead off w v
  | true => exact ⟨_, _, s.modelFault, rfl, .inl rfl⟩

theorem State.onlyRead_hostRegRead (s : State) (off : Nat) : s.OnlyRead (s.hostRegRead off) := by
  unfold State.hostRegRead
  split
  · exact s.onlyRead_logRead _ _ _
  · exact s.onlyRead_takeDraw_logRead _ _ _ _

theorem State.onlyRead_hostMemRead8 (s : State) (a : Nat) : s.OnlyRead (s.hostMemRead8 a) := by
  unfold State.hostMemRead8
  split
  · exact s.onlyRead_logRead _ _ _
  · exact s.onlyRead_recordFault _

theorem State.onlyRead_hostMemRead32 (s : State) (a : Nat) : s.OnlyRead (s.hostMemRead32 a) := by
  unfold State.hostMemRead32
  split
  · exact s.onlyRead_logRead _ _ _
  · exact s.onlyRead_recordFault _

/-- Settles O37: a read is a race, or unsupported, or the read of a register, a byte or a word. -/
theorem readsHaveNoSideEffect : Obligations.ReadsHaveNoSideEffect := by
  intro s a hk
  change s.OnlyRead (s.hostAccess a)
  by_cases hrace : s.busy = true ∧ 0x10000 ≤ a.offset ∧ a.offset < 0x10000 + s.cfg.dmemSize
  · obtain ⟨hb, hlo, hhi⟩ := hrace
    rw [State.hostAccess_race hb hlo hhi]
    exact s.onlyRead_recordFault _
  have hquiet : s.busy = false ∨ a.offset < 0x10000 ∨ 0x10000 + s.cfg.dmemSize ≤ a.offset := by
    by_contra hloud
    exact hrace (by simpa using hloud)
  cases hsup : a.supported s.cfg with
  | false =>
    rw [State.hostAccess_unsupported hsup hquiet]
    exact s.onlyRead_recordFault _
  | true =>
    rcases Access.supported_cases hsup with
      ⟨k, off, v, rfl, ho, hal⟩ | ⟨k, x, v, rfl, hx⟩ | ⟨k, x, v, rfl, hal, hx⟩ <;> obtain rfl : k = .read := hk
    · rw [State.hostAccess_window _ _ _ _ ho hal]
      exact s.onlyRead_hostRegRead off
    · rw [State.hostAccess_dmem_read8 (hquiet.resolve_right (by simp only; omega)) hx]
      exact s.onlyRead_hostMemRead8 x
    · rw [State.hostAccess_dmem_read32 (hquiet.resolve_right (by simp only; omega)) hal hx]
      exact s.onlyRead_hostMemRead32 x

/-! ## O41: bytes with no value -/

theorem State.hostMemRead8_hole {s : State} {a : Nat} (h : s.dmem.read a = none) :
    s.hostMemRead8 a = s.recordFault .uninitRead := by
  simp only [State.hostMemRead8, h]

/-- A 32-bit read needs all its four bytes. -/
theorem State.hostMemRead32_hole {s : State} {a b : Nat} (h : s.dmem.read a = none) (hlo : b ≤ a) (hhi : a < b + 4) :
    s.hostMemRead32 b = s.recordFault .uninitRead := by
  unfold State.hostMemRead32
  split
  · rename_i h0 h1 h2 h3
    obtain rfl | rfl | rfl | rfl : a = b ∨ a = b + 1 ∨ a = b + 2 ∨ a = b + 3 := by omega
    all_goals simp_all
  · rfl

/-- Settles O41: a byte read finds the hole itself, a word read one among its four bytes. -/
theorem hostReadOfValuelessByteIsUninitRead : Obligations.HostReadOfValuelessByteIsUninitRead := by
  refine fun s a hb hhole => ⟨fun ha => ?_, fun b hal hlo hhi hin => ?_⟩
  · rw [State.hostAccess_dmem_read8 hb ha, State.hostMemRead8_hole hhole]
  · rw [State.hostAccess_dmem_read32 hb hal hin, State.hostMemRead32_hole hhole hlo hhi]

end Sys2Proof.Machine
end

section
/-! PROOFS. Obligations O2, O1 and O3 (command words, 30_encoding.md R110 to R114), O42 and O43 (the host's side, R116
to R118). First the two fields of a word as numbers; then all that the opcode map and the decoder can answer; then
BIT.NZ and the transactions of RUN. -/

namespace Sys2Proof

/-! ## The fields of a command word -/

theorem opcodeField_toNat (w : Word) : (opcodeField w).toNat = w.toNat % 256 :=
  BitVec.extractLsb'_toNat 0 8 w

theorem rsvdField_eq_zero_iff (w : Word) : rsvdField w = 0#24 ↔ w.toNat / 256 = 0 := by
  have hw := w.isLt
  rw [← BitVec.toNat_inj, rsvdField, BitVec.extractLsb'_toNat, Nat.shiftRight_eq_div_pow, BitVec.toNat_ofNat]
  omega

/-! ## What the decoder can answer -/

/-- The opcodes R114 lists: those with no row in the opcode map. -/
def IsUnassigned (n : Nat) : Prop := n = 0x0D ∨ n = 0x0E ∨ 0x10 ≤ n

/-- The opcode map, read in both directions: a row answers the command of that opcode, everything off the map is
unassigned. -/
theorem decodeOpcode_cases (op : Byte) :
    (∃ i, op.toNat = (encode i).toNat ∧ decodeOpcode op = .ok i) ∨
    (IsUnassigned op.toNat ∧ decodeOpcode op = .error .unassignedOpcode) := by
  unfold decodeOpcode
  split
  case h_15 =>
    have hun : IsUnassigned op.toNat := by
      simp only [imp_false] at *
      unfold IsUnassigned
      omega
    exact .inr ⟨hun, rfl⟩
  all_goals exact .inl ⟨_, ‹_›, rfl⟩

/-- All that decoding can answer, each answer with the words that get it. -/
theorem decode_cases (w : Word) :
    (w.toNat / 256 ≠ 0 ∧ decode w = .error .reservedBits) ∨
    (∃ i, w = encode i ∧ decode w = .ok i) ∨
    (w.toNat / 256 = 0 ∧ IsUnassigned w.toNat ∧ decode w = .error .unassignedOpcode) := by
  unfold decode
  by_cases hrsvd : w.toNat / 256 = 0
  · have hop : (opcodeField w).toNat = w.toNat := by rw [opcodeField_toNat]; omega
    rw [if_neg (not_not.2 ((rsvdField_eq_zero_iff w).2 hrsvd))]
    rcases decodeOpcode_cases (opcodeField w) with ⟨i, hi, hdec⟩ | ⟨hun, hdec⟩
    · exact .inr (.inl ⟨i, BitVec.eq_of_toNat_eq (hop.symm.trans hi), hdec⟩)
    · exact .inr (.inr ⟨hrsvd, hop ▸ hun, hdec⟩)
  · exact .inl ⟨hrsvd, if_pos (mt (rsvdField_eq_zero_iff w).1 hrsvd)⟩

@[simp] theorem decode_encode (i : Instr) : decode (encode i) = .ok i := by cases i <;> rfl

theorem decode_eq_ok_iff (w : Word) (i : Instr) : decode w = .ok i ↔ w = encode i := by
  refine ⟨fun h => ?_, fun h => h ▸ decode_encode i⟩
  rcases decode_cases w with ⟨_, e⟩ | ⟨j, rfl, e⟩ | ⟨_, _, e⟩
  · cases e.symm.trans h
  · cases e.symm.trans h; rfl
  · cases e.symm.trans h

/-- A command's word is none of those R114 lists. -/
theorem encode_assigned (i : Instr) : (encode i).toNat / 256 = 0 ∧ ¬ IsUnassigned (encode i).toNat := by
  unfold IsUnassigned
  cases i <;> decide

theorem decode_eq_reservedBits_iff (w : Word) : decode w = .error .reservedBits ↔ w.toNat / 256 ≠ 0 := by
  rcases decode_cases w with ⟨hrsvd, e⟩ | ⟨i, rfl, e⟩ | ⟨hrsvd, _, e⟩
  · simp [e, hrsvd]
  · simp [e, (encode_assigned i).1]
  · simp [e, hrsvd]

theorem decode_eq_unassignedOpcode_iff (w : Word) :
    decode w = .error .unassignedOpcode ↔ w.toNat / 256 = 0 ∧ IsUnassigned w.toNat := by
  rcases decode_cases w with ⟨hrsvd, e⟩ | ⟨i, rfl, e⟩ | ⟨hrsvd, hun, e⟩
  · simp [e, hrsvd]
  · simp [e, encode_assigned i]
  · simp [e, hrsvd, hun]

/-- Settles O2: every word gets exactly one of the answers of `decode_cases`. -/
theorem decodeExactlyAssignedWords : Obligations.DecodeExactlyAssignedWords := fun w =>
  ⟨decode_eq_ok_iff w, decode_eq_reservedBits_iff w, decode_eq_unassignedOpcode_iff w⟩

/-- Settles O1: one row of the opcode map per command. -/
theorem decodeOfEncode : Obligations.DecodeOfEncode := fun i _ => decode_encode i

/-- Settles O3: the words are six commands', a gap of the opcode map, and a word with a reserved bit. -/
theorem writtenWordsDecode : Obligations.WrittenWordsDecode :=
  ⟨decode_encode .nop, decode_encode .xor, decode_encode .b64dec, decode_encode .letterscore,
    decode_encode .breakhits, decode_encode .reset, (decode_eq_unassignedOpcode_iff _).2 ⟨by decide, .inl rfl⟩,
    (decode_eq_reservedBits_iff _).2 (by decide)⟩

end Sys2Proof

namespace Sys2Proof.Machine

/-! ## O42: BIT.NZ -/

/-- A branch on a register that has been read takes no draw and moves the host alone. -/
theorem State.hostBranch_of_lastRead {s : State} {r : RegName} {bit j : Nat} {l : Label} {v : Word}
    (hread : s.host.lastRead r = some v) (hlabel : labelIndex l s.host.program = some j) :
    s.hostBranch r bit l = .next (if v.getLsbD bit = true then s.jumpTo j else s.advance) := by
  unfold State.hostBranch
  rw [hread, hlabel]
  cases hbit : v.getLsbD bit <;> simp [hbit, State.takeDraw]

/-- Settles O42: the host's turn is the branch, in the state with the turn taken. -/
theorem hostBranchFollowsLastRead : Obligations.HostBranchFollowsLastRead := by
  intro s r bit j l v hturn hcur hread hlabel
  have hcur' : s.popTurn.host.current = some (.bitNZ r bit l) := hcur
  rw [step_of_host hturn, State.hostStep, hcur']
  simp only [State.hostBranch_of_lastRead (s := s.popTurn) hread hlabel]
  cases v.getLsbD bit <;> rfl

/-! ## O43: the transactions of RUN -/

theorem transactionsOf_append (p q : List HostStmt) :
    transactionsOf (p ++ q) = transactionsOf p ++ transactionsOf q := by
  induction p with
  | nil => rfl
  | cons st t ih => cases st <;> simp [transactionsOf, ih]

/-- Settles O43: OPS, the CMD write and WAIT, each by its own transactions; WAIT's label and branch emit none. -/
theorem runExpandsToSixWritesAndAPoll : Obligations.RunExpandsToSixWritesAndAPoll := by
  intro n i aa al ba bl da
  rw [expandStmt, transactionsOf_append, transactionsOf_append]
  rfl

end Sys2Proof.Machine
end

section
/-! PROOFS. Obligations O4, O7 to O10 and O27 (40_command_cycle.md R140 to R148): the command cycle. First the CMD
write; then the updates a completion does not see, OVERRUN among them; then the one fault a command can stop with; then
what a success leaves of ERR, of the record and of the state beside its report. -/

namespace Sys2Proof.Machine

/-! ## O4: the engine's turn -/

/-- Settles O4: the engine's turn completes the latched word, and the decoder says which command it is. -/
theorem stepRunsDecodedCommand : Obligations.StepRunsDecodedCommand := fun _ _ _ => step_of_engine

/-! ## O7: the CMD write -/

theorem State.hostAccess_write_cmd (s : State) (v : Word) :
    s.hostAccess { kind := .write, offset := 0x004, width := .w32, data := v } = s.writeCmd v :=
  s.hostAccess_write_reg .cmd v

theorem State.writeCmd_of_idle {s : State} (hb : s.busy = false) (v : Word) : s.writeCmd v = s.issue v := by
  simp [State.writeCmd, hb]

theorem State.writeCmd_of_busy {s : State} (hb : s.busy = true) (v : Word) :
    s.writeCmd v = { s with overrun := true } := if_pos hb

/-- Settles O7: with BUSY = 0 the write at 0x004 is the issue. -/
theorem cmdWriteIssues : Obligations.CmdWriteIssues := by
  intro s v hidle
  rw [State.hostAccess_write_cmd, State.writeCmd_of_idle hidle]
  rfl

/-! ## O8: OVERRUN and the command in flight -/

/-- An update of the state that leaves the fault record, the latched record and the command's computation alone, and
that each form of completion keeps, commutes with the completion step. -/
theorem State.complete_map {s : State} {f : State → State} {body : State → Latch → Cmd Report}
    (hfault : (f s).modelFault = s.modelFault) (hlatched : (f s).latched = s.latched)
    (hbody : ∀ L, body (f s) L = body s L)
    (hok : ∀ L r, body s L = .ok r → ((f s).applyOk L r).finish = f (s.applyOk L r).finish)
    (herr : ∀ c, (f s).failed c = f (s.failed c))
    (hrecord : ∀ g, (f s).recordFault g = f (s.recordFault g)) :
    (f s).complete body = mapNext f (s.complete body) := by
  cases hm : s.modelFault with
  | some g =>
    rw [State.complete_of_modelFault hm, State.complete_of_modelFault (hfault.trans hm)]
    rfl
  | none =>
    cases hL : s.latched with
    | none => simp only [State.complete, hfault, hlatched, hm, hL, mapNext]
    | some L =>
      rw [State.complete_running body ⟨hm, hL⟩, State.complete_running body ⟨hfault.trans hm, hlatched.trans hL⟩,
        hbody]
      rcases hb : body s L with ⟨c | g⟩ | r
      · exact congrArg Host.Outcome.next (herr c)
      · exact congrArg Host.Outcome.next (hrecord g)
      · exact congrArg Host.Outcome.next (hok L r hb)

/-- A success other than RESET's leaves OVERRUN as it finds it (10_state.md R41). -/
theorem State.applyOk_finish_overrun (s : State) (L : Latch) {r : Report} (hreset : r.reset = false) (b : Bool) :
    (State.applyOk { s with overrun := b } L r).finish = { (s.applyOk L r).finish with overrun := b } := by
  cases hd : r.dict with
  | none => rw [State.applyOk_finish _ _ _ hreset hd, State.applyOk_finish _ _ _ hreset hd]; rfl
  | some d => rw [State.applyOk_finish_dict _ _ _ d hreset hd, State.applyOk_finish_dict _ _ _ d hreset hd]; rfl

/-- No command looks at OVERRUN. -/
theorem bodyOf_overrun (i : Instr) (s : State) (L : Latch) (b : Bool) :
    bodyOf i { s with overrun := b } L = bodyOf i s L := by
  apply bodyOf_congr <;> rfl

theorem exec_overrun {i : Instr} (hi : i ≠ .reset) (s : State) (b : Bool) :
    exec i { s with overrun := b } = mapNext (fun t => { t with overrun := b }) (exec i s) := by
  rw [exec_eq_complete, exec_eq_complete]
  exact State.complete_map (f := fun t => { t with overrun := b }) rfl rfl
    (fun L => bodyOf_overrun i s L b)
    (fun L r hok => s.applyOk_finish_overrun L (bodyOf_reset hi hok) b) (fun _ => rfl) (fun _ => rfl)

/-- RESET's completion, whatever the registers held (46_control.md R321). -/
theorem exec_reset_of_running {s : State} {L : Latch} (h : s.Running L) :
    exec .reset s = .next { s.resetRegs with done := true } := by
  rw [exec_reset, State.complete_of_ok h rfl, State.applyOk_finish_reset _ _ _ rfl]

/-- Settles O8: with BUSY = 1 the write sets OVERRUN, which no command looks at and RESET clears. -/
theorem cmdWriteWhileBusyOnlyOverruns : Obligations.CmdWriteWhileBusyOnlyOverruns := by
  intro s v hbusy
  refine ⟨?_, fun i hi => exec_overrun hi s true, fun hfault => ?_⟩
  · rw [State.hostAccess_write_cmd, State.writeCmd_of_busy hbusy]
  · obtain ⟨L, hL⟩ := Option.isSome_iff_exists.1 hbusy
    have hrun : s.Running L := ⟨hfault, hL⟩
    have hrun' : State.Running { s with overrun := true } L := ⟨hfault, hL⟩
    rw [exec_reset_of_running hrun, exec_reset_of_running hrun']
    rfl

/-! ## O9: completion, or UninitRead -/

/-- The one model fault x can stop with is UninitRead (40_command_cycle.md R147). -/
def Cmd.FaultsOnlyUninit {α : Type} (x : Cmd α) : Prop := ∀ f, x = .error (.fault f) → f = .uninitRead

namespace Cmd.FaultsOnlyUninit

theorem ok {α : Type} (a : α) : FaultsOnlyUninit (.ok a) := nofun

theorem err {α : Type} (c : ErrCode) : FaultsOnlyUninit (.error (.err c) : Cmd α) := nofun

/-- A sequence stops where its first part does, or where the rest does. -/
theorem bind {α β : Type} {x : Cmd α} {k : α → Cmd β} (hx : x.FaultsOnlyUninit)
    (hk : ∀ a, (k a).FaultsOnlyUninit) : (x >>= k).FaultsOnlyUninit := by
  cases x with
  | ok a => exact hk a
  | error e => exact fun f hf => hx f (by cases hf; rfl)

theorem readSource (s : State) (addr len : Word) : (Machine.readSource s addr len).FaultsOnlyUninit := by
  rcases readSource_cases s addr len with ⟨bs, -, -, e⟩ | ⟨-, -, e⟩ | ⟨-, e⟩ <;> rw [e]
  · exact ok bs
  · exact fun f hf => by cases hf; rfl
  · exact err _

theorem srcA (s : State) (L : Latch) : (Machine.srcA s L).FaultsOnlyUninit := readSource s _ _

theorem srcB (s : State) (L : Latch) : (Machine.srcB s L).FaultsOnlyUninit := readSource s _ _

theorem checkDst (s : State) (L : Latch) (n : Nat) : (Machine.checkDst s L n).FaultsOnlyUninit := by
  unfold Machine.checkDst
  split
  · exact ok ()
  · exact err _

theorem requireDict (s : State) : (Machine.requireDict s).FaultsOnlyUninit := by
  unfold Machine.requireDict
  split
  · exact ok ()
  · exact err _

theorem raiseIf (b : Bool) (c : ErrCode) : (Machine.raiseIf b c).FaultsOnlyUninit := by
  cases b with
  | false => exact ok ()
  | true => exact err c

theorem orRaise {α : Type} (x : Option α) (c : ErrCode) : (Machine.orRaise x c).FaultsOnlyUninit := by
  cases x with
  | none => exact err c
  | some a => exact ok a

/-- Each command's computation is a sequence of operand reads and checks that ends in a report. -/
theorem bodyOf (i : Instr) (s : State) (L : Latch) : (Machine.bodyOf i s L).FaultsOnlyUninit := by
  have a := srcA s L
  have b := srcB s L
  have dst := checkDst s L
  have req := requireDict s
  cases i with
  | nop => exact ok _
  | hexenc => exact a.bind fun _ => (dst _).bind fun _ => ok _
  | hexdec => exact a.bind fun _ => (raiseIf _ _).bind fun _ => (orRaise _ _).bind fun _ => (dst _).bind fun _ => ok _
  | xor => exact a.bind fun _ => b.bind fun _ => (raiseIf _ _).bind fun _ => (dst _).bind fun _ => ok _
  | repxor => exact a.bind fun _ => b.bind fun _ => (raiseIf _ _).bind fun _ => (dst _).bind fun _ => ok _
  | hamming => exact a.bind fun _ => b.bind fun _ => (raiseIf _ _).bind fun _ => ok _
  | b64enc => exact a.bind fun _ => (dst _).bind fun _ => ok _
  | b64dec => exact a.bind fun _ => (orRaise _ _).bind fun _ => (dst _).bind fun _ => ok _
  | dictload => exact (raiseIf _ _).bind fun _ => a.bind fun _ => (raiseIf _ _).bind fun _ => ok _
  | wordhits => exact req.bind fun _ => a.bind fun _ => ok _
  | letterscore => exact req.bind fun _ => a.bind fun _ => ok _
  | breakscore =>
    refine req.bind fun _ => a.bind fun c => ?_
    cases reportedBest s.freq c with
    | none => exact ok _
    | some best => exact (dst _).bind fun _ => ok _
  | breakhits => exact req.bind fun _ => a.bind fun _ => (dst _).bind fun _ => ok _
  | reset => exact ok _

end Cmd.FaultsOnlyUninit

@[simp] theorem State.applyOk_modelFault (s : State) (L : Latch) (r : Report) :
    (s.applyOk L r).modelFault = s.modelFault := by
  unfold State.applyOk
  split <;> simp

/-- Settles O9: a success and a failure complete, and the one fault there is is recorded. -/
theorem everyCommandCompletesOrRecordsUninitRead : Obligations.EveryCommandCompletesOrRecordsUninitRead := by
  intro i s L hrun
  have hnone : s.modelFault = none := hrun.1
  rw [exec_eq_complete]
  rcases hb : bodyOf i s L with ⟨c | f⟩ | r
  · exact ⟨_, State.complete_of_err hrun hb, .inl ⟨rfl, rfl, hnone⟩⟩
  · obtain rfl : f = .uninitRead := Cmd.FaultsOnlyUninit.bodyOf i s L f hb
    exact ⟨_, State.complete_of_fault hrun hb, .inr (State.recordFault_of_none hnone _)⟩
  · exact ⟨_, State.complete_of_ok hrun hb, .inl ⟨rfl, rfl, (s.applyOk_modelFault L r).trans hnone⟩⟩

/-! ## O10: failures -/

/-- A success leaves ERR 0, RESET's too (40_command_cycle.md R144). -/
@[simp] theorem State.applyOk_err (s : State) (L : Latch) (r : Report) : (s.applyOk L r).err = false := by
  unfold State.applyOk
  split <;> simp

/-- Settles O10: a success has ERR 0, and a recorded fault leaves BUSY 1. -/
theorem failedCommandHasNoEffectButItsReport : Obligations.FailedCommandHasNoEffectButItsReport := by
  intro i s t h hidle herr
  rw [exec_eq_complete] at h
  obtain ⟨L, ⟨-, hL⟩, ⟨r, -, rfl⟩ | ⟨c, -, rfl⟩ | ⟨f, -, rfl⟩⟩ := State.complete_cases h
  · simp at herr
  · exact ⟨c, rfl⟩
  · simp [State.busy, hL] at hidle

/-! ## O27: the commands without a destination -/

/-- A command without a destination has no output. -/
theorem bodyOf_out_eq_none {i : Instr} {s : State} {L : Latch} {r : Report}
    (hi : i ∈ [Instr.nop, .hamming, .dictload, .wordhits, .letterscore]) (h : bodyOf i s L = .ok r) :
    r.out = none := by
  simp only [List.mem_cons, List.not_mem_nil, or_false] at hi
  rcases hi with rfl | rfl | rfl | rfl | rfl
  · cases h; rfl
  · obtain ⟨_, _, _, _, _, rfl⟩ := hammingBody_ok h; rfl
  · obtain ⟨_, _, _, _, rfl⟩ := dictloadBody_ok h; rfl
  · obtain ⟨_, _, _, rfl⟩ := wordhitsBody_ok h; rfl
  · obtain ⟨_, _, _, rfl⟩ := letterscoreBody_ok h; rfl

/-- Settles O27: with no output a success writes no byte, and only DICTLOAD's report holds a dictionary. -/
theorem nonStoringCommandsFrame : Obligations.NonStoringCommandsFrame := by
  intro i hi s t h
  have hreset : i ≠ .reset := by rintro rfl; exact absurd hi (by decide)
  rw [exec_eq_complete] at h
  obtain ⟨L, -, ⟨r, hok, rfl⟩ | ⟨c, -, rfl⟩ | ⟨f, -, rfl⟩⟩ := State.complete_cases h
  · have hout := bodyOf_out_eq_none hi hok
    rcases bodyOf_dict hok with hnone | ⟨rfl, -, d, hd, -⟩
    · rw [State.applyOk_finish s L r (bodyOf_reset hreset hok) hnone, hout]
      simp [State.succeeded, Memory.writeBytes]
    · rw [State.applyOk_finish_dict s L r d (bodyOf_reset hreset hok) hd, hout]
      simp [State.succeeded, Memory.writeBytes]
  · simp [State.failed]
  · simp

end Sys2Proof.Machine
end

section
/-! PROOFS. Obligations O47 and O60 (41_byte_symbol.md R180, R187). BitDifference is Mathlib's Hamming distance between
the two bytes' bits, which is a metric. The bounds of R187: each function's result against the length of its operand;
for words and tokens by counting every piece together with the separator that ends it. -/

namespace Sys2Proof

/-- The ranges and the constraint of 00_scope.md R8. -/
theorem Params.wf_iff (p : Params) :
    p.wf = true ↔ 1 ≤ p.dmemSize ∧ p.dmemSize ≤ 65536 ∧ p.dmemSize * p.dictCap < 2 ^ 32 := by
  simp [Params.wf, and_assoc]

/-- With a DMEM of at least one byte, the constraint on the product bounds DICT_CAP itself (00_scope.md R8). -/
theorem Params.dictCap_lt {p : Params} (h : p.wf = true) : p.dictCap < 2 ^ 32 := by
  obtain ⟨hpos, -, hprod⟩ := (Params.wf_iff p).1 h
  exact (Nat.le_mul_of_pos_left _ hpos).trans_lt hprod

end Sys2Proof

namespace Sys2Proof.Machine

/-! ## O47: BitDifference as a Hamming distance -/

/-- The bits of a byte, as a point of the Hamming space of eight bits. -/
def bitsOf (b : Byte) (i : Fin 8) : Bool := b.getLsbD i

theorem bitsOf_injective : Function.Injective bitsOf := fun _ _ h =>
  BitVec.eq_of_getLsbD_eq fun i hi => congrFun h ⟨i, hi⟩

theorem popcount8_eq_card (v : Byte) : popcount8 v = ({i | bitsOf v i} : Finset (Fin 8)).card := by
  have hcount : popcount8 v = Nat.count (fun i => v.getLsbD i) 8 := by
    simp only [popcount8, Nat.count, Bool.decide_eq_true]
  rw [hcount, Nat.count_eq_card_filter_range, Finset.card_filter, Finset.card_filter]
  exact (Fin.sum_univ_eq_sum_range (fun i => if v.getLsbD i then 1 else 0) 8).symm

theorem bitDifference_eq_hammingDist (a b : Byte) : bitDifference a b = hammingDist (bitsOf a) (bitsOf b) := by
  rw [bitDifference, popcount8_eq_card, hammingDist]
  congr 1
  ext i
  simp [bitsOf, xor8]

/-- Settles O47: the bits determine the byte, and the Hamming distance of the bits is a metric. -/
theorem bitDifferenceIsAMetric : Obligations.BitDifferenceIsAMetric := by
  intro a b c
  simp only [bitDifference_eq_hammingDist]
  exact ⟨hammingDist_comm _ _, hammingDist_eq_zero.trans bitsOf_injective.eq_iff, hammingDist_triangle _ _ _⟩

/-! ## Pieces and runs between separators (44_frequency.md R261, R265) -/

section
variable (sep : Byte → Bool)

theorem splitPieces_ne_nil (s : Bytes) : splitPieces sep s ≠ [] := by
  cases s with
  | nil => simp [splitPieces]
  | cons b t =>
    rw [splitPieces]
    split
    · simp
    · split <;> simp

/-- A separator ends the empty piece before it. -/
theorem splitPieces_cons_of_sep {b : Byte} (hb : sep b = true) (t : Bytes) :
    splitPieces sep (b :: t) = [] :: splitPieces sep t := by
  obtain ⟨p, ps, hp⟩ := List.exists_cons_of_ne_nil (splitPieces_ne_nil sep t)
  simp [splitPieces, hp, hb]

/-- Any other byte joins the first piece of the rest. -/
theorem splitPieces_cons_of_not_sep {b : Byte} (hb : sep b = false) (t : Bytes) :
    ∃ p ps, splitPieces sep t = p :: ps ∧ splitPieces sep (b :: t) = (b :: p) :: ps := by
  obtain ⟨p, ps, hp⟩ := List.exists_cons_of_ne_nil (splitPieces_ne_nil sep t)
  exact ⟨p, ps, hp, by simp [splitPieces, hp, hb]⟩

/-- The pieces hold every byte but the separators. -/
theorem splitPieces_flatten (s : Bytes) : (splitPieces sep s).flatten = s.filter (fun c => !sep c) := by
  induction s with
  | nil => rfl
  | cons b t ih =>
    cases hb : sep b with
    | true => simp [splitPieces_cons_of_sep sep hb, ih, hb]
    | false =>
      obtain ⟨p, ps, hp, hbp⟩ := splitPieces_cons_of_not_sep sep hb t
      rw [hp, List.flatten_cons] at ih
      rw [hbp, List.flatten_cons, List.cons_append, ih, List.filter_cons_of_pos (by simp [hb])]

/-- The runs hold every byte but the separators. -/
theorem runs_flatten (s : Bytes) : (runs sep s).flatten = s.filter (fun c => !sep c) := by
  rw [runs, List.flatten_filter_not_isEmpty, splitPieces_flatten]

/-- Every piece but the last is ended by one separator: counted with it, the pieces have one byte more than the
string. -/
theorem sum_length_succ_splitPieces (s : Bytes) : ((splitPieces sep s).map (·.length + 1)).sum = s.length + 1 := by
  induction s with
  | nil => rfl
  | cons b t ih =>
    cases hb : sep b with
    | true => simp [splitPieces_cons_of_sep sep hb, ih]; omega
    | false =>
      obtain ⟨p, ps, hp, hbp⟩ := splitPieces_cons_of_not_sep sep hb t
      rw [hp] at ih
      simp [hbp] at ih ⊢
      omega

/-- A non-empty piece counts for at least 2 with its separator. -/
theorem two_mul_length_nonempty_le (ps : List Bytes) :
    2 * (ps.filter (fun p => !p.isEmpty)).length ≤ (ps.map (·.length + 1)).sum := by
  induction ps with
  | nil => simp
  | cons p ps ih =>
    cases p with
    | nil => simp at ih ⊢; omega
    | cons b p => simp at ih ⊢; omega

/-- Each run needs a byte, and a separator before the next (41_byte_symbol.md R187). -/
theorem runs_length_le (s : Bytes) : (runs sep s).length ≤ (s.length + 1) / 2 := by
  have hpieces := two_mul_length_nonempty_le (splitPieces sep s)
  rw [sum_length_succ_splitPieces] at hpieces
  rw [runs]
  omega

end

/-! ## The bounds of each function's result -/

theorem popcount8_le (v : Byte) : popcount8 v ≤ 8 := List.countP_le_length

theorem hammingDistance_le (a b : Bytes) : hammingDistance a b ≤ 8 * a.length := by
  have hterm : ∀ n ∈ List.zipWith bitDifference a b, n ≤ 8 := by
    intro n hn
    obtain ⟨i, hi, rfl⟩ := List.mem_iff_getElem.1 hn
    rw [List.getElem_zipWith]
    exact popcount8_le _
  calc hammingDistance a b ≤ (List.zipWith bitDifference a b).length * 8 := List.sum_le_card_nsmul _ _ hterm
    _ ≤ 8 * a.length := by rw [List.length_zipWith]; omega

/-- The counts over the words are one count over the bytes that are no newline. -/
theorem freqCount_eq_count (d : Bytes) (b : Byte) : freqCount d b = (d.filter (fun c => !isNewline c)).count b := by
  rw [freqCount, ← runs_flatten isNewline d, List.count_flatten]; rfl

theorem freqCount_le (d : Bytes) (b : Byte) : freqCount d b ≤ d.length := by
  rw [freqCount_eq_count]
  exact List.count_le_length.trans (List.length_filter_le _ _)

/-- A count below 2^32 is stored exactly. -/
theorem freqAt_freqTable {d : Bytes} {b : Byte} (h : freqCount d b < 2 ^ 32) :
    freqAt (freqTable d) b = freqCount d b := by
  simpa [freqAt, freqTable] using h

theorem wordsOf_length_le (d : Bytes) : (wordsOf d).length ≤ d.length := by
  have := runs_length_le isNewline d
  rw [wordsOf]
  omega

theorem letterScore_le {freq : Vector (BitVec 32) 256} {n : Nat} (h : ∀ b, freqAt freq b ≤ n) (t : Bytes) :
    letterScore freq t ≤ t.length * n := by
  have := List.sum_le_card_nsmul (t.map (freqAt freq)) n (by simpa using fun b _ => h b)
  simpa [letterScore] using this

theorem wordHitCount_le (d t : Bytes) : wordHitCount d t ≤ (t.length + 1) / 2 :=
  List.countP_le_length.trans (runs_length_le isSpace t)

/-- A record's count is the hit count of its candidate, a text as long as the ciphertext. -/
theorem searchByHits_hits_le {d c : Bytes} {kh : Byte × Nat} (h : kh ∈ searchByHits d c) :
    kh.2 ≤ (c.length + 1) / 2 := by
  obtain ⟨k, -, rfl⟩ := List.mem_map.1 h
  simpa using wordHitCount_le d (candidate c k)

theorem searchByHits_length_le (d c : Bytes) : (searchByHits d c).length ≤ 256 := by
  rw [searchByHits, List.length_map]
  exact (List.length_filter_le _ _).trans_eq (by simp [breakKeys])

/-! ## O60: the rows of R187 in a state that meets the invariant -/

section
variable {s : State} (h : s.Inv)
include h

theorem State.Inv.freqCount_le_dictCap (b : Byte) : freqCount s.dict b ≤ s.cfg.dictCap :=
  (freqCount_le s.dict b).trans h.dict_cap

/-- FREQ holds the exact counts (41_byte_symbol.md R187). -/
theorem State.Inv.freqAt_eq (b : Byte) : freqAt s.freq b = freqCount s.dict b := by
  rw [h.freq_memo]
  exact freqAt_freqTable ((h.freqCount_le_dictCap b).trans_lt (Params.dictCap_lt h.cfg_wf))

theorem State.Inv.letterScore_le_mul {t : Bytes} (ht : t.length ≤ s.cfg.dmemSize) :
    letterScore s.freq t ≤ s.cfg.dmemSize * s.cfg.dictCap :=
  (letterScore_le (fun b => (h.freqAt_eq b).trans_le (h.freqCount_le_dictCap b)) t).trans
    (Nat.mul_le_mul_right _ ht)

end

/-- Settles O60: each row is the bound of its function, with the operand inside DMEM and the dictionary inside DICT. -/
theorem storedValuesFit32Bits : Obligations.StoredValuesFit32Bits := by
  intro s h
  obtain ⟨hpos, hmax, hprod⟩ := (Params.wf_iff s.cfg).1 h.cfg_wf
  refine ⟨fun a b ha => ?_, by omega, fun b => ⟨h.freqCount_le_dictCap b, h.freqAt_eq b⟩,
    Params.dictCap_lt h.cfg_wf, (wordsOf_length_le s.dict).trans h.dict_cap, fun _ => h.letterScore_le_mul, hprod,
    fun t ht => ⟨wordHitCount_le s.dict t, by omega⟩, fun _ _ _ => searchByHits_hits_le,
    searchByHits_length_le s.dict⟩
  exact (hammingDistance_le a b).trans (Nat.mul_le_mul_left 8 ha)

end Sys2Proof.Machine
end

section
/-! PROOFS. Obligations O14 to O18 and O48 to O52 (42_hex_sequence.md): the HexSequence commands. First what exec
answers when a computation reads an operand, checks its destination, succeeds or fails; then HEXENC and HEXDEC, the two
functions and their round trips before the two results; then XOR, REPXOR and HAMMING in the same way. -/

namespace Sys2Proof.Machine

/-! ## What exec answers, by the end of the computation -/

section
variable {i : Instr} {s : State} {L : Latch} (hrun : s.Running L)
include hrun

theorem exec_of_body_err {c : ErrCode} (h : bodyOf i s L = .error (.err c)) : exec i s = .next (s.failed c) := by
  rw [exec_eq_complete, State.complete_of_err hrun h]

theorem exec_of_body_fault {f : ModelFault} (h : bodyOf i s L = .error (.fault f)) :
    exec i s = .next (s.recordFault f) := by
  rw [exec_eq_complete, State.complete_of_fault hrun h]

theorem exec_of_body_ok {r : Report} (h : bodyOf i s L = .ok r) (hreset : r.reset = false := by rfl)
    (hdict : r.dict = none := by rfl) :
    exec i s = .next (s.succeeded L (r.out.getD []) r.result r.key r.found) := by
  rw [exec_eq_complete, State.complete_of_ok hrun h, State.applyOk_finish s L r hreset hdict]

/-- Every outcome of a computation that goes on with an operand read: the two ways to stop, and whatever is so once the
operand is read (40_command_cycle.md R146, R147). -/
theorem exec_of_readSource {addr len : Word} {k : Bytes → Cmd Report} {P : Bytes → Prop}
    (h : bodyOf i s L = readSource s addr len >>= k)
    (hP : ∀ bs, s.Holds addr len.toNat bs → bodyOf i s L = k bs → P bs) :
    (¬ s.Inside addr len.toNat → exec i s = .next (s.failed .addressRange)) ∧
    (s.Inside addr len.toNat → s.HasHole addr len.toNat → exec i s = .next (s.recordFault .uninitRead)) ∧
    ∀ bs, s.Inside addr len.toNat → s.Holds addr len.toNat bs → P bs := by
  refine ⟨fun hout => exec_of_body_err hrun ?_, fun hin hhole => exec_of_body_fault hrun ?_,
    fun bs hin hbs => hP bs hbs ?_⟩
  · rw [h, readSource_outside hout, Cmd.error_bind]
  · rw [h, readSource_hole hin hhole, Cmd.error_bind]
  · rw [h, readSource_ok hin hbs, Cmd.ok_bind]

/-- Both outcomes of a computation that has only its destination left to check (40_command_cycle.md R146). -/
theorem exec_of_checkDst {n : Nat} {r : Report} (h : bodyOf i s L = checkDst s L n >>= fun _ => pure r)
    (hreset : r.reset = false := by rfl) (hdict : r.dict = none := by rfl) :
    (s.Inside L.dAddr n → exec i s = .next (s.succeeded L (r.out.getD []) r.result r.key r.found)) ∧
    (¬ s.Inside L.dAddr n → exec i s = .next (s.failed .addressRange)) := by
  refine ⟨fun hin => exec_of_body_ok hrun ?_ hreset hdict, fun hout => exec_of_body_err hrun ?_⟩
  · rw [h, checkDst_ok hin, Cmd.ok_bind]; rfl
  · rw [h, checkDst_outside hout, Cmd.error_bind]

end

/-! ## O48: HEXDEC undoes HEXENC -/

/-- The digits are 16 different ones of hexVal's domain (41_byte_symbol.md R171, R172). -/
@[simp] theorem hexVal_hexDigit (n : BitVec 4) : hexVal (hexDigit n) = some n := by
  revert n; decide

/-- A byte is its high nibble before its low one. -/
@[simp] theorem fromHexDigits_toHexText (b : Byte) :
    fromHexDigits (hexDigit (b.extractLsb' 4 4)) (hexDigit (b.extractLsb' 0 4)) = some b := by
  have hsplit : (b.extractLsb' 4 4 ++ b.extractLsb' 0 4 : Byte) = b := by
    rw [BitVec.extractLsb'_append_extractLsb'_eq_extractLsb' (by rfl), BitVec.extractLsb'_eq_self]
  simp [fromHexDigits, hsplit]

theorem hexText_cons (b : Byte) (a : Bytes) :
    hexText (b :: a) = hexDigit (b.extractLsb' 4 4) :: hexDigit (b.extractLsb' 0 4) :: hexText a := rfl

/-- Settles O48: byte by byte, the two digits give the byte back. -/
theorem hexDecodeOfHexEncode : Obligations.HexDecodeOfHexEncode := by
  intro a
  induction a with
  | nil => rfl
  | cons b a ih => simp [hexText_cons, hexBytes, ih]

/-! ## O49: HEXENC of HEXDEC's output -/

theorem fromHexDigits_eq_some {h l b : Byte} :
    fromHexDigits h l = some b ↔ ∃ x y, hexVal h = some x ∧ hexVal l = some y ∧ x ++ y = b := by
  unfold fromHexDigits
  cases hexVal h <;> cases hexVal l <;> simp

theorem hexBytes_cons_cons_eq_some {h l : Byte} {t out : Bytes} :
    hexBytes (h :: l :: t) = some out ↔
      ∃ b bs, fromHexDigits h l = some b ∧ hexBytes t = some bs ∧ b :: bs = out := by
  rw [hexBytes]
  cases fromHexDigits h l <;> cases hexBytes t <;> simp

/-- An upper-case hex digit (42_hex_sequence.md R196). -/
abbrev IsUpperDigit (c : Byte) : Prop := 0x41 ≤ c.toNat ∧ c.toNat ≤ 0x46

/-- R196's replacement of upper-case hex digits, as the statement writes it. -/
def lowerDigit (c : Byte) : Byte := if IsUpperDigit c then c + 0x20#8 else c

theorem lowerDigit_eq_self_iff (c : Byte) : lowerDigit c = c ↔ ¬ IsUpperDigit c := by
  unfold lowerDigit
  split
  · simpa using ‹IsUpperDigit c›
  · simpa using ‹¬ IsUpperDigit c›

theorem lowerDigit_toNat (c : Byte) :
    (lowerDigit c).toNat = if IsUpperDigit c then c.toNat + 0x20 else c.toNat := by
  unfold lowerDigit
  split
  · rw [BitVec.toNat_add_of_lt] <;> simp; omega
  · rfl

theorem hexDigit_toNat (n : BitVec 4) :
    (hexDigit n).toNat = if n.toNat ≤ 9 then 0x30 + n.toNat else 0x57 + n.toNat := by
  have hn := n.isLt
  unfold hexDigit
  split <;> rw [BitVec.toNat_ofNat] <;> omega

/-- HexDigit of a digit's value is the digit in lower case: one case per range of R171. -/
theorem hexDigit_of_hexVal {c : Byte} {n : BitVec 4} (h : hexVal c = some n) : hexDigit n = lowerDigit c := by
  apply BitVec.eq_of_toNat_eq
  rw [hexDigit_toNat, lowerDigit_toNat]
  unfold hexVal at h
  split at h
  case isTrue hdecimal =>
    cases h
    rw [if_neg (show ¬ IsUpperDigit c by omega), BitVec.toNat_ofNat]; split <;> omega
  case isFalse =>
    split at h
    case isTrue hlower =>
      cases h
      rw [if_neg (show ¬ IsUpperDigit c by omega), BitVec.toNat_ofNat]; split <;> omega
    case isFalse =>
      split at h
      case isTrue hupper => cases h; rw [if_pos hupper, BitVec.toNat_ofNat]; split <;> omega
      case isFalse => cases h

theorem toHexText_of_fromHexDigits {h l b : Byte} (hb : fromHexDigits h l = some b) :
    toHexText b = [lowerDigit h, lowerDigit l] := by
  obtain ⟨x, y, hx, hy, rfl⟩ := fromHexDigits_eq_some.1 hb
  have hhigh : (x ++ y : Byte).extractLsb' 4 4 = x := BitVec.extractLsb'_append_eq_left
  have hlow : (x ++ y : Byte).extractLsb' 0 4 = y := BitVec.extractLsb'_append_eq_right
  rw [toHexText, hhigh, hlow, hexDigit_of_hexVal hx, hexDigit_of_hexVal hy]

theorem hexText_of_hexBytes : ∀ {t out : Bytes}, hexBytes t = some out → hexText out = t.map lowerDigit
  | [], _, h => by cases h; rfl
  | [_], _, h => by cases h
  | hi :: lo :: t, _, h => by
    obtain ⟨b, bs, hb, hbs, rfl⟩ := hexBytes_cons_cons_eq_some.1 h
    calc hexText (b :: bs) = toHexText b ++ hexText bs := List.flatMap_cons
      _ = [lowerDigit hi, lowerDigit lo] ++ t.map lowerDigit := by
        rw [toHexText_of_fromHexDigits hb, hexText_of_hexBytes hbs]

/-- Settles O49: the digits come back in lower case, which changes exactly the upper-case ones. -/
theorem hexEncodeOfHexDecodeIsLowerCase : Obligations.HexEncodeOfHexDecodeIsLowerCase := by
  intro t out h
  have htext := hexText_of_hexBytes h
  refine ⟨htext, ?_⟩
  rw [htext]
  calc t.map lowerDigit = t ↔ ∀ c ∈ t, lowerDigit c = c := by
        conv_lhs => rhs; rw [← List.map_id t]
        exact List.map_inj_left
    _ ↔ ∀ c ∈ t, ¬ IsUpperDigit c := by simp only [lowerDigit_eq_self_iff]

/-! ## O14 and O15: HEXENC and HEXDEC -/

/-- Settles O14: the operand is read, then the destination is checked for two digits a byte. -/
theorem hexencResult : Obligations.HexencResult := by
  refine ⟨decode_encode .hexenc, fun s L hrun => exec_of_readSource hrun (i := .hexenc) rfl fun a _ hbody => ?_⟩
  exact exec_of_checkDst hrun hbody

theorem hexBytes_cons_cons_isSome (h l : Byte) (t : Bytes) :
    (hexBytes (h :: l :: t)).isSome = ((hexVal h).isSome && (hexVal l).isSome && (hexBytes t).isSome) := by
  rw [hexBytes, fromHexDigits]
  cases hexVal h <;> cases hexVal l <;> cases hexBytes t <;> rfl

/-- HEXDEC's text is legal when its length is even and every byte is a hex digit (42_hex_sequence.md R195). -/
theorem hexBytes_isSome_iff : ∀ t : Bytes,
    (hexBytes t).isSome ↔ t.length % 2 = 0 ∧ ∀ c ∈ t, hexVal c ≠ none
  | [] => by simp [hexBytes]
  | [_] => by simp [hexBytes]
  | h :: l :: t => by
    have hlen : (h :: l :: t).length % 2 = t.length % 2 := Nat.add_mod_right _ 2
    rw [hexBytes_cons_cons_isSome, hlen, Bool.and_eq_true, hexBytes_isSome_iff t]
    simp only [List.forall_mem_cons, Bool.and_eq_true, Option.isSome_iff_ne_none]
    tauto

/-- Byte i comes of digits 2i and 2i+1. -/
theorem hexBytes_getElem? : ∀ {t out : Bytes} {i : Nat}, hexBytes t = some out → i < out.length →
    out[i]? = fromHexDigits (t.getD (2 * i) 0#8) (t.getD (2 * i + 1) 0#8)
  | [], _, _, h, hi => by cases h; cases hi
  | [_], _, _, h, _ => by cases h
  | hd :: lo :: t, _, i, h, hi => by
    obtain ⟨b, bs, hb, hbs, rfl⟩ := hexBytes_cons_cons_eq_some.1 h
    cases i with
    | zero => exact hb.symm
    | succ i =>
      have hi' : i < bs.length := by simpa using hi
      simpa [Nat.mul_succ] using hexBytes_getElem? hbs hi'

/-- Settles O15: an odd length stops the command before its digits are looked at, an illegal digit before the destination
is checked. -/
theorem hexdecResult : Obligations.HexdecResult := by
  refine ⟨decode_encode .hexdec, fun s L hrun => exec_of_readSource hrun (i := .hexdec) rfl fun t _ hbody => ⟨?_, ?_⟩⟩
  · intro hillegal
    refine exec_of_body_err hrun (hbody.trans ?_)
    by_cases heven : t.length % 2 = 0
    · have hnone : hexBytes t = none := by
        rw [← Option.not_isSome_iff_eq_none, hexBytes_isSome_iff]
        rintro ⟨-, hdigits⟩
        obtain hodd | ⟨c, hc, hval⟩ := hillegal
        · exact hodd heven
        · exact hdigits c hc hval
      simp [heven, hnone]
    · simp [heven]
  · intro heven hdigits
    obtain ⟨out, hout⟩ := Option.isSome_iff_exists.1 ((hexBytes_isSome_iff t).2 ⟨heven, hdigits⟩)
    refine ⟨out, hexBytes_length hout, fun i hi => hexBytes_getElem? hout hi, ?_⟩
    exact exec_of_checkDst hrun (r := { out := some out }) (hbody.trans (by simp [heven, hout]))

/-! ## O50: the algebra of XOR -/

theorem xor8_comm (a b : Byte) : xor8 a b = xor8 b a := BitVec.xor_comm a b

@[simp] theorem xor8_self (a : Byte) : xor8 a a = 0#8 := BitVec.xor_self

@[simp] theorem xor8_xor8_cancel (a b : Byte) : xor8 (xor8 a b) b = a := by
  rw [xor8, xor8, BitVec.xor_assoc, BitVec.xor_self, BitVec.xor_zero]

theorem xorBytes_comm (a b : Bytes) : xorBytes a b = xorBytes b a := List.zipWith_comm_of_comm xor8_comm

theorem xorBytes_self (a : Bytes) : xorBytes a a = List.replicate a.length 0#8 := by
  simp [xorBytes, List.zipWith_self]

theorem xorBytes_xorBytes_cancel {a b : Bytes} (h : a.length = b.length) : xorBytes (xorBytes a b) b = a := by
  apply List.ext_getElem <;> simp [xorBytes, h]

/-- Settles O50: each law is the law of xor8, byte by byte. -/
theorem xorAlgebra : Obligations.XorAlgebra := fun a b h =>
  ⟨xorBytes_comm a b, xorBytes_self a, xorBytes_xorBytes_cancel h⟩

/-! ## O51: the laws of REPXOR -/

theorem repXorFrom_eq_mapIdx (k : Bytes) (i : Nat) (a : Bytes) :
    repXorFrom k i a = a.mapIdx (fun j x => xor8 x (keyByte k (i + j))) := by
  induction a generalizing i with
  | nil => rfl
  | cons x a ih => simp [repXorFrom, ih, Nat.add_assoc, Nat.add_comm 1]

/-- REPXOR is the map that XORs byte j with key byte j mod m (42_hex_sequence.md R206). -/
theorem repXor_eq_mapIdx (a k : Bytes) : repXor a k = a.mapIdx (fun j x => xor8 x (keyByte k j)) := by
  simp [repXor, repXorFrom_eq_mapIdx]

theorem repXor_repXor_cancel (a k : Bytes) : repXor (repXor a k) k = a := by
  apply List.ext_getElem <;> simp [repXor_eq_mapIdx]

/-- Within a full-length key no index wraps around. -/
theorem repXor_eq_xorBytes {a k : Bytes} (h : k.length = a.length) : repXor a k = xorBytes a k := by
  apply List.ext_getElem
  · simp [xorBytes, h]
  · intro j hj _
    have hjk : j < k.length := by simpa [h] using hj
    simp [repXor_eq_mapIdx, xorBytes, keyByte, Nat.mod_eq_of_lt hjk, hjk]

/-- A one-byte key wraps around at every byte. -/
theorem repXor_singleton (a : Bytes) (x : Byte) : repXor a [x] = candidate a x := by
  have hkey (j : Nat) : keyByte [x] j = x := by simp [keyByte, Nat.mod_one]
  rw [repXor_eq_mapIdx, candidate]
  apply List.ext_getElem <;> simp [hkey]

/-- Settles O51: REPXOR is a map over the data with the byte's place; the first law holds for the empty key as well. -/
theorem repxorLaws : Obligations.RepxorLaws := fun a k _ =>
  ⟨repXor_repXor_cancel a k, repXor_eq_xorBytes, repXor_singleton a⟩

/-! ## O52: the laws of HAMMING -/

theorem bitDifference_comm (a b : Byte) : bitDifference a b = bitDifference b a := (bitDifferenceIsAMetric a b a).1

@[simp] theorem bitDifference_self (a : Byte) : bitDifference a a = 0 := by
  obtain ⟨-, hzero, -⟩ := bitDifferenceIsAMetric a a a
  exact hzero.2 rfl

theorem hammingDistance_self (a : Bytes) : hammingDistance a a = 0 := by
  simp [hammingDistance, List.zipWith_self]

theorem hammingDistance_comm (a b : Bytes) : hammingDistance a b = hammingDistance b a := by
  rw [hammingDistance, List.zipWith_comm_of_comm bitDifference_comm, hammingDistance]

/-- The 1 bits of the XOR are the bits that differ (41_byte_symbol.md R179). -/
theorem hammingDistance_eq_sum_popcount8 (a b : Bytes) :
    hammingDistance a b = ((xorBytes a b).map popcount8).sum := by
  rw [hammingDistance, xorBytes, List.map_zipWith]; rfl

/-- Settles O52: each law is the law of BitDifference, byte by byte. -/
theorem hammingLaws : Obligations.HammingLaws := fun a b _ =>
  ⟨hammingDistance_self a, hammingDistance_comm a b, hammingDistance_eq_sum_popcount8 a b⟩

/-! ## O16 to O18: XOR, REPXOR and HAMMING -/

/-- Operands read in full are of equal length exactly when A_LEN = B_LEN. -/
theorem State.Holds.length_eq_iff {s : State} {aAddr aLen bAddr bLen : Word} {a b : Bytes}
    (ha : s.Holds aAddr aLen.toNat a) (hb : s.Holds bAddr bLen.toNat b) : a.length = b.length ↔ aLen = bLen := by
  rw [ha.1, hb.1, BitVec.toNat_inj]

/-- Settles O16: both operands are read before the lengths are compared, and the destination is checked last. -/
theorem xorResult : Obligations.XorResult := by
  refine ⟨decode_encode .xor, fun s L hrun => exec_of_readSource hrun (i := .xor) rfl fun a ha hbodyA =>
    exec_of_readSource hrun hbodyA fun b hb hbody => ?_⟩
  have hlen := State.Holds.length_eq_iff ha hb
  refine ⟨fun hne => exec_of_body_err hrun (hbody.trans ?_), ?_⟩
  · simp [hlen, hne]
  · rw [← forall_and]
    intro heq
    exact exec_of_checkDst hrun (r := { out := some (xorBytes a b) }) (hbody.trans (by simp [hlen, heq]))

/-- Settles O17: both operands are read before an empty key is refused, and the destination is checked last. -/
theorem repxorResult : Obligations.RepxorResult := by
  refine ⟨decode_encode .repxor, fun s L hrun => exec_of_readSource hrun (i := .repxor) rfl fun a ha hbodyA =>
    exec_of_readSource hrun hbodyA fun k hk hbody => ?_⟩
  have hempty : k.length = 0 ↔ L.bLen = 0#32 := by rw [hk.1, ← BitVec.toNat_inj]; rfl
  refine ⟨fun hzero => exec_of_body_err hrun (hbody.trans ?_), fun hne => ⟨repXor a k, repXor_length a k, ?_, ?_⟩⟩
  · simp [hempty, hzero]
  · intro i hi
    simp [repXor_eq_mapIdx, keyByte, xor8, hi]
  · exact exec_of_checkDst hrun (r := { out := some (repXor a k) }) (hbody.trans (by simp [hempty, hne]))

/-- Settles O18: HAMMING checks no destination, so equal lengths are all it needs once its operands are read. -/
theorem hammingResult : Obligations.HammingResult := by
  refine ⟨decode_encode .hamming, fun s L hrun => exec_of_readSource hrun (i := .hamming) rfl fun a ha hbodyA =>
    exec_of_readSource hrun hbodyA fun b hb hbody => ⟨fun hne => ?_, fun heq => ?_⟩⟩
  · exact exec_of_body_err hrun (hbody.trans (by simp [State.Holds.length_eq_iff ha hb, hne]))
  · exact exec_of_body_ok hrun (hbody.trans (by simp [State.Holds.length_eq_iff ha hb, heq]; rfl))

end Sys2Proof.Machine
end

section
/-! PROOFS. Obligations O19, O20, O53 and O54 (43_base64.md): the Base64Sequence commands. First the alphabet, the
trailing run of '=' and the bit packing of one group; then the shape of a text's values, which every encoding has and
the parser accepts exactly; then the obligations, each read off that shape. -/

namespace Sys2Proof.Machine

/-! ## The alphabet -/

@[simp] theorem b64Render_padValue : b64Render padValue = padByte := rfl

theorem ne_padValue_of_lt {v : Nat} (h : v < 64) : v ≠ padValue := Nat.ne_of_lt h

theorem b64Index_b64Render {v : Nat} (h : v < 64) : b64Index (b64Render v) = some v := by
  revert v; decide

/-- '=' is no byte of the alphabet (43_base64.md R230). -/
theorem b64Index_padByte : b64Index padByte = none := by decide

theorem b64Render_ne_padByte {v : Nat} (h : v < 64) : b64Render v ≠ padByte := by
  intro hpad
  have hindex := b64Index_b64Render h
  rw [hpad, b64Index_padByte] at hindex
  cases hindex

theorem b64Char_toNat (v : Nat) : (b64Char v).toNat =
    if v ≤ 25 then (0x41 + v) % 256 else if v ≤ 51 then (0x61 + (v - 26)) % 256
    else if v ≤ 61 then (0x30 + (v - 52)) % 256 else if v = 62 then 0x2B else 0x2F := by
  unfold b64Char
  repeat' split
  all_goals rfl

/-- One case per range of R230. -/
theorem b64Char_of_b64Index {c : Byte} {v : Nat} (h : b64Index c = some v) : v < 64 ∧ b64Char v = c := by
  rw [← BitVec.toNat_inj, b64Char_toNat]
  unfold b64Index at h
  split at h
  case isTrue hupper => cases h; rw [if_pos (by omega)]; omega
  case isFalse =>
    split at h
    case isTrue hlower => cases h; rw [if_neg (by omega), if_pos (by omega)]; omega
    case isFalse =>
      split at h
      case isTrue hdigit => cases h; rw [if_neg (by omega), if_neg (by omega), if_pos (by omega)]; omega
      case isFalse =>
        split at h
        case isTrue hplus => cases h; rw [hplus]; decide
        case isFalse =>
          split at h
          case isTrue hslash => cases h; rw [hslash]; decide
          case isFalse => cases h

theorem b64Index_eq_some_iff {c : Byte} {v : Nat} : b64Index c = some v ↔ v < 64 ∧ b64Render v = c := by
  refine ⟨fun h => ?_, fun ⟨hv, hc⟩ => hc ▸ b64Index_b64Render hv⟩
  obtain ⟨hv, hc⟩ := b64Char_of_b64Index h
  exact ⟨hv, (if_neg (ne_padValue_of_lt hv)).trans hc⟩

theorem b64Indices_cons_eq_some {c : Byte} {t : Bytes} {vals : List Nat} :
    b64Indices (c :: t) = some vals ↔
      ∃ v vs, b64Index c = some v ∧ b64Indices t = some vs ∧ v :: vs = vals := by
  rw [b64Indices]
  cases b64Index c <;> cases b64Indices t <;> simp

theorem b64Indices_eq_some_iff {t : Bytes} {vals : List Nat} :
    b64Indices t = some vals ↔ (∀ v ∈ vals, v < 64) ∧ vals.map b64Render = t := by
  induction t generalizing vals with
  | nil => cases vals <;> simp [b64Indices]
  | cons c t ih =>
    simp only [b64Indices_cons_eq_some, b64Index_eq_some_iff, ih]
    constructor
    · rintro ⟨v, vs, ⟨hv, hc⟩, ⟨hvs, ht⟩, rfl⟩
      exact ⟨List.forall_mem_cons.2 ⟨hv, hvs⟩, by rw [List.map_cons, hc, ht]⟩
    · rintro ⟨hlt, hmap⟩
      cases vals with
      | nil => cases hmap
      | cons v vs =>
        obtain ⟨hv, hvs⟩ := List.forall_mem_cons.1 hlt
        obtain ⟨hc, ht⟩ := List.cons_eq_cons.1 hmap
        exact ⟨v, vs, ⟨hv, hc⟩, ⟨hvs, ht⟩, rfl⟩

/-! ## The trailing run of '=' -/

theorem trailingPads_append {d : Bytes} (h : ∀ c ∈ d, c ≠ padByte) (p : Nat) :
    trailingPads (d ++ List.replicate p padByte) = p := by
  have hd : d.reverse.takeWhile (· == padByte) = [] := by
    cases hrev : d.reverse with
    | nil => rfl
    | cons c cs =>
      have hc : c ∈ d := List.mem_reverse.1 (hrev ▸ List.mem_cons_self)
      exact List.takeWhile_cons_of_neg (by simpa using h c hc)
  rw [trailingPads, List.reverse_append, List.reverse_replicate, List.takeWhile_append_of_pos (by simp), hd]
  simp

/-- A text is what stands before its trailing run of '=' and that run. -/
theorem take_append_trailingPads (t : Bytes) :
    t.take (t.length - trailingPads t) ++ List.replicate (trailingPads t) padByte = t := by
  have hrun : t.rtakeWhile (· == padByte) = List.replicate (trailingPads t) padByte := by
    refine List.eq_replicate_iff.2 ⟨List.length_reverse, fun c hc => ?_⟩
    simpa using List.mem_rtakeWhile_imp hc
  have hsplit := List.rdropWhile_append_rtakeWhile (p := (· == padByte)) (l := t)
  rw [hrun] at hsplit
  have hlen : (t.rdropWhile (· == padByte)).length = t.length - trailingPads t := by
    have := congrArg List.length hsplit
    simp only [List.length_append, List.length_replicate] at this
    omega
  rw [← hlen, ← List.prefix_iff_eq_take.1 (List.rdropWhile_prefix ..), hsplit]

/-! ## The bit packing of one group -/

/-- The 24-bit value of four six-bit ones, most significant first (43_base64.md R232). -/
def packSextets (s0 s1 s2 s3 : Nat) : Nat := s0 * 2 ^ 18 + s1 * 2 ^ 12 + s2 * 2 ^ 6 + s3

/-- The three bytes of a 24-bit value (43_base64.md R232). -/
def unpackBytes (w : Nat) : Bytes := [BitVec.ofNat 8 (w / 2 ^ 16), BitVec.ofNat 8 (w / 2 ^ 8), BitVec.ofNat 8 w]

theorem sextet_lt {w j : Nat} : sextet w j < 64 := Nat.mod_lt _ (by decide)

theorem packBytes_lt (b0 b1 b2 : Byte) : packBytes b0 b1 b2 < 2 ^ 24 := by
  have := b0.isLt; have := b1.isLt; have := b2.isLt
  unfold packBytes
  omega

theorem packSextets_lt {a b c d : Nat} (ha : a < 64) (hb : b < 64) (hc : c < 64) (hd : d < 64) :
    packSextets a b c d < 2 ^ 24 := by
  unfold packSextets
  omega

theorem packSextets_sextet {w : Nat} (h : w < 2 ^ 24) :
    packSextets (sextet w 3) (sextet w 2) (sextet w 1) (sextet w 0) = w := by
  simp only [packSextets, sextet]
  omega

theorem sextet_packSextets {a b c d : Nat} (ha : a < 64) (hb : b < 64) (hc : c < 64) (hd : d < 64) :
    sextet (packSextets a b c d) 3 = a ∧ sextet (packSextets a b c d) 2 = b ∧
      sextet (packSextets a b c d) 1 = c ∧ sextet (packSextets a b c d) 0 = d := by
  simp only [packSextets, sextet]
  omega

theorem unpackBytes_packBytes (b0 b1 b2 : Byte) : unpackBytes (packBytes b0 b1 b2) = [b0, b1, b2] := by
  have := b0.isLt; have := b1.isLt; have := b2.isLt
  simp only [unpackBytes, packBytes, List.cons.injEq, and_true]
  refine ⟨?_, ?_, ?_⟩ <;> apply BitVec.eq_of_toNat_eq <;> rw [BitVec.toNat_ofNat] <;> omega

theorem groupBytes_of_lt {a b c d : Nat} (ha : a < 64) (hb : b < 64) (hc : c < 64) (hd : d < 64) :
    groupBytes a b c d = unpackBytes (packSextets a b c d) := by
  simp [groupBytes, valueBits, ne_padValue_of_lt, unpackBytes, packSextets, *]

theorem groupBytes_onePad {a b c : Nat} (ha : a < 64) (hb : b < 64) (hc : c < 64) :
    groupBytes a b c padValue = (unpackBytes (packSextets a b c 0)).take 2 := by
  simp [groupBytes, valueBits, ne_padValue_of_lt, unpackBytes, packSextets, *]

theorem groupBytes_twoPads {a b : Nat} (ha : a < 64) (hb : b < 64) :
    groupBytes a b padValue padValue = (unpackBytes (packSextets a b 0 0)).take 1 := by
  simp [groupBytes, valueBits, ne_padValue_of_lt, unpackBytes, packSextets, *]

/-! ### From bytes to values -/

theorem groupBytes_sextets (b0 b1 b2 : Byte) :
    groupBytes (sextet (packBytes b0 b1 b2) 3) (sextet (packBytes b0 b1 b2) 2) (sextet (packBytes b0 b1 b2) 1)
      (sextet (packBytes b0 b1 b2) 0) = [b0, b1, b2] := by
  rw [groupBytes_of_lt sextet_lt sextet_lt sextet_lt sextet_lt,
    packSextets_sextet (packBytes_lt b0 b1 b2), unpackBytes_packBytes]

/-- Two bytes leave the last value 0, so the sentinel in its place loses nothing. -/
theorem groupBytes_sextets_onePad (b0 b1 : Byte) :
    groupBytes (sextet (packBytes b0 b1 0) 3) (sextet (packBytes b0 b1 0) 2) (sextet (packBytes b0 b1 0) 1) padValue =
      [b0, b1] := by
  have hlast : sextet (packBytes b0 b1 0) 0 = 0 := by
    simp only [sextet, packBytes, BitVec.ofNat_eq_ofNat, BitVec.toNat_ofNat]
    omega
  have hpack := packSextets_sextet (packBytes_lt b0 b1 0)
  rw [hlast] at hpack
  rw [groupBytes_onePad sextet_lt sextet_lt sextet_lt, hpack, unpackBytes_packBytes]
  rfl

/-- One byte leaves the last two values 0. -/
theorem groupBytes_sextets_twoPads (b0 : Byte) :
    groupBytes (sextet (packBytes b0 0 0) 3) (sextet (packBytes b0 0 0) 2) padValue padValue = [b0] := by
  have hlast : sextet (packBytes b0 0 0) 1 = 0 ∧ sextet (packBytes b0 0 0) 0 = 0 := by
    simp only [sextet, packBytes, BitVec.ofNat_eq_ofNat, BitVec.toNat_ofNat]
    omega
  have hpack := packSextets_sextet (packBytes_lt b0 0 0)
  rw [hlast.1, hlast.2] at hpack
  rw [groupBytes_twoPads sextet_lt sextet_lt, hpack, unpackBytes_packBytes]
  rfl

/-! ### From values to bytes -/

theorem packBytes_unpacked {w : Nat} (h : w < 2 ^ 24) :
    packBytes (BitVec.ofNat 8 (w / 2 ^ 16)) (BitVec.ofNat 8 (w / 2 ^ 8)) (BitVec.ofNat 8 w) = w := by
  simp only [packBytes, BitVec.toNat_ofNat]
  omega

section
variable {a b c d : Nat} (ha : a < 64) (hb : b < 64)
include ha hb

theorem b64Values_groupBytes_append (hc : c < 64) (hd : d < 64) (t : Bytes) :
    b64Values (groupBytes a b c d ++ t) = a :: b :: c :: d :: b64Values t := by
  obtain ⟨h3, h2, h1, h0⟩ := sextet_packSextets ha hb hc hd
  rw [groupBytes_of_lt ha hb hc hd]
  change b64Values (_ :: _ :: _ :: t) = _
  rw [b64Values, packBytes_unpacked (packSextets_lt ha hb hc hd), h3, h2, h1, h0]

/-- Two bytes keep the third value but for its low 2 bits (43_base64.md R239). -/
theorem b64Values_groupBytes_onePad (hc : c < 64) :
    b64Values (groupBytes a b c padValue) = [a, b, c / 4 * 4, padValue] := by
  have hpack : packBytes (BitVec.ofNat 8 (packSextets a b c 0 / 2 ^ 16))
      (BitVec.ofNat 8 (packSextets a b c 0 / 2 ^ 8)) 0 = packSextets a b (c / 4 * 4) 0 := by
    simp only [packBytes, packSextets, BitVec.toNat_ofNat, BitVec.ofNat_eq_ofNat]
    omega
  obtain ⟨h3, h2, h1, -⟩ := sextet_packSextets ha hb (show c / 4 * 4 < 64 by omega) (show 0 < 64 by decide)
  rw [groupBytes_onePad ha hb hc]
  change b64Values [_, _] = _
  rw [b64Values, hpack, h3, h2, h1]

/-- One byte keeps the second value but for its low 4 bits (43_base64.md R239). -/
theorem b64Values_groupBytes_twoPads :
    b64Values (groupBytes a b padValue padValue) = [a, b / 16 * 16, padValue, padValue] := by
  have hpack : packBytes (BitVec.ofNat 8 (packSextets a b 0 0 / 2 ^ 16)) 0 0 = packSextets a (b / 16 * 16) 0 0 := by
    simp only [packBytes, packSextets, BitVec.toNat_ofNat, BitVec.ofNat_eq_ofNat]
    omega
  obtain ⟨h3, h2, -, -⟩ :=
    sextet_packSextets ha (show b / 16 * 16 < 64 by omega) (show 0 < 64 by decide) (show 0 < 64 by decide)
  rw [groupBytes_twoPads ha hb]
  change b64Values [_] = _
  rw [b64Values, hpack, h3, h2]

end

/-! ## The shape of a text's values -/

/-- Values below 64 in groups of four, the last one short by p <= 2 values where p sentinels stand (43_base64.md R233,
R236). -/
inductive B64Shape : List Nat → Nat → Prop
  | nil : B64Shape [] 0
  | twoPads {a b : Nat} (ha : a < 64) (hb : b < 64) : B64Shape [a, b] 2
  | onePad {a b c : Nat} (ha : a < 64) (hb : b < 64) (hc : c < 64) : B64Shape [a, b, c] 1
  | group {a b c d p : Nat} {vals : List Nat} (ha : a < 64) (hb : b < 64) (hc : c < 64) (hd : d < 64)
      (h : B64Shape vals p) : B64Shape (a :: b :: c :: d :: vals) p

theorem B64Shape.of_lt {p : Nat} (hp : p ≤ 2) :
    ∀ {vals : List Nat}, (∀ v ∈ vals, v < 64) → (vals.length + p) % 4 = 0 → B64Shape vals p
  | [], _, hmod => by
    obtain rfl : p = 0 := by simp only [List.length_nil] at hmod; omega
    exact .nil
  | [_], _, hmod => by simp only [List.length_singleton] at hmod; omega
  | [a, b], hlt, hmod => by
    obtain rfl : p = 2 := by simp only [List.length_cons, List.length_nil] at hmod; omega
    exact .twoPads (hlt a (by simp)) (hlt b (by simp))
  | [a, b, c], hlt, hmod => by
    obtain rfl : p = 1 := by simp only [List.length_cons, List.length_nil] at hmod; omega
    exact .onePad (hlt a (by simp)) (hlt b (by simp)) (hlt c (by simp))
  | a :: b :: c :: d :: vals, hlt, hmod => by
    have hmod' : (vals.length + p) % 4 = 0 := by simp only [List.length_cons] at hmod; omega
    simp only [List.forall_mem_cons] at hlt
    obtain ⟨ha, hb, hc, hd, hvals⟩ := hlt
    exact .group ha hb hc hd (of_lt hp hvals hmod')

theorem b64Shape_iff {vals : List Nat} {p : Nat} :
    B64Shape vals p ↔ (∀ v ∈ vals, v < 64) ∧ p ≤ 2 ∧ (vals.length + p) % 4 = 0 := by
  refine ⟨fun h => ?_, fun ⟨hlt, hp, hmod⟩ => .of_lt hp hlt hmod⟩
  induction h with
  | nil => simp
  | twoPads ha hb => simp [ha, hb]
  | onePad ha hb hc => simp [ha, hb, hc]
  | group ha hb hc hd _ ih =>
    obtain ⟨hlt, hp, hmod⟩ := ih
    refine ⟨by simpa [ha, hb, hc, hd] using hlt, hp, ?_⟩
    simp only [List.length_cons]
    omega

theorem map_b64Render_append (vals : List Nat) (p : Nat) :
    (vals ++ List.replicate p padValue).map b64Render = vals.map b64Render ++ List.replicate p padByte := by
  simp

theorem B64Shape.trailingPads {vals : List Nat} {p : Nat} (h : B64Shape vals p) :
    trailingPads (vals.map b64Render ++ List.replicate p padByte) = p := by
  refine trailingPads_append (fun c hc => ?_) p
  obtain ⟨v, hv, rfl⟩ := List.mem_map.1 hc
  exact b64Render_ne_padByte ((b64Shape_iff.1 h).1 v hv)

/-- Parse accepts exactly the renderings of a shape, and answers the shape (43_base64.md R236). -/
theorem b64Parse_eq_some_iff {t : Bytes} {vals : List Nat} {p : Nat} :
    b64Parse t = some (vals, p) ↔ B64Shape vals p ∧ vals.map b64Render ++ List.replicate p padByte = t := by
  constructor
  · intro h
    unfold b64Parse at h
    split at h
    case isTrue => cases h
    case isFalse hpads =>
      cases hindices : b64Indices (t.take (t.length - trailingPads t)) with
      | none => rw [hindices] at h; cases h
      | some vs =>
        simp only [hindices] at h
        split at h
        case isTrue => cases h
        case isFalse hmod =>
          cases h
          obtain ⟨hlt, hmap⟩ := b64Indices_eq_some_iff.1 hindices
          exact ⟨b64Shape_iff.2 ⟨hlt, Nat.le_of_not_lt hpads, not_not.1 hmod⟩, by rw [hmap, take_append_trailingPads]⟩
  · rintro ⟨hshape, rfl⟩
    obtain ⟨hlt, hp, hmod⟩ := b64Shape_iff.1 hshape
    have hvals : b64Indices (vals.map b64Render) = some vals := b64Indices_eq_some_iff.2 ⟨hlt, rfl⟩
    rw [b64Parse, hshape.trailingPads, if_neg (by omega), List.length_append, List.length_replicate,
      Nat.add_sub_cancel, List.take_left' rfl, hvals]
    simp [hmod]

/-- The values of an encoding have a shape, whose sentinels stand for the missing bytes of the last group
(43_base64.md R233). -/
theorem b64Values_shape (a : Bytes) :
    ∃ vals p, B64Shape vals p ∧ b64Values a = vals ++ List.replicate p padValue ∧ (a.length + p) % 3 = 0 := by
  induction a using b64Values.induct with
  | case1 => exact ⟨[], 0, .nil, rfl, rfl⟩
  | case2 b0 => exact ⟨_, 2, .twoPads sextet_lt sextet_lt, rfl, by simp⟩
  | case3 b0 b1 => exact ⟨_, 1, .onePad sextet_lt sextet_lt sextet_lt, rfl, by simp⟩
  | case4 b0 b1 b2 t ih =>
    obtain ⟨vals, p, hshape, hvals, hmod⟩ := ih
    refine ⟨sextet (packBytes b0 b1 b2) 3 :: sextet (packBytes b0 b1 b2) 2 :: sextet (packBytes b0 b1 b2) 1 ::
      sextet (packBytes b0 b1 b2) 0 :: vals, p, .group sextet_lt sextet_lt sextet_lt sextet_lt hshape, ?_, ?_⟩
    · rw [b64Values, hvals]; rfl
    · simp only [List.length_cons]; omega

/-! ## O53: length and padding -/

/-- Settles O53: the text is the rendering of a shape, and no byte before its p padding bytes is '='. -/
theorem b64PaddingShape : Obligations.B64PaddingShape := by
  intro a
  obtain ⟨vals, p, hshape, hvals, htail⟩ := b64Values_shape a
  obtain ⟨hlt, hp, -⟩ := b64Shape_iff.1 hshape
  have htext : b64Text a = vals.map b64Render ++ List.replicate p padByte := by
    rw [b64Text, hvals, map_b64Render_append]
  have hpads : trailingPads (b64Text a) = p := htext ▸ hshape.trailingPads
  refine ⟨b64Text_length a, by omega, by omega, by omega, fun i hi => ?_⟩
  rw [htext] at hi ⊢
  have hafter : vals.length ≤ i := by
    by_contra! hbefore
    rw [List.getElem?_append_left (by simpa using hbefore), List.getElem?_map,
      List.getElem?_eq_getElem hbefore] at hi
    exact b64Render_ne_padByte (hlt _ (List.getElem_mem hbefore)) (Option.some.inj hi)
  simp only [List.length_append, List.length_map, List.length_replicate]
  omega

/-! ## O54: the round trips -/

theorem b64Decode_group (a b c d : Nat) (vals : List Nat) (p : Nat) :
    b64Decode (a :: b :: c :: d :: vals) p = groupBytes a b c d ++ b64Decode vals p := rfl

theorem b64Decode_onePad (a b c : Nat) : b64Decode [a, b, c] 1 = groupBytes a b c padValue :=
  List.append_nil _

theorem b64Decode_twoPads (a b : Nat) : b64Decode [a, b] 2 = groupBytes a b padValue padValue :=
  List.append_nil _

theorem decodeGroups_b64Values (a : Bytes) : decodeGroups (b64Values a) = a := by
  induction a using b64Values.induct with
  | case1 => rfl
  | case2 b0 => simp only [b64Values, decodeGroups, groupBytes_sextets_twoPads, List.append_nil]
  | case3 b0 b1 => simp only [b64Values, decodeGroups, groupBytes_sextets_onePad, List.append_nil]
  | case4 b0 b1 b2 t ih =>
    simp only [b64Values, decodeGroups, groupBytes_sextets, ih, List.cons_append, List.nil_append]

/-- The discarded bits of a text are 0: the low 2 bits of its last value where one padding byte follows, the low 4 where
two do (43_base64.md R239). -/
def DiscardedBitsZero (vals : List Nat) (p : Nat) : Prop :=
  (p = 1 → vals.getLastD 0 % 4 = 0) ∧ (p = 2 → vals.getLastD 0 % 16 = 0)

theorem discardedBitsZero_onePad (a b c : Nat) : DiscardedBitsZero [a, b, c] 1 ↔ c % 4 = 0 := by
  simp [DiscardedBitsZero]

theorem discardedBitsZero_twoPads (a b : Nat) : DiscardedBitsZero [a, b] 2 ↔ b % 16 = 0 := by
  simp [DiscardedBitsZero]

/-- Only the last group discards bits. -/
theorem discardedBitsZero_group {vals : List Nat} {p : Nat} (h : B64Shape vals p) (a b c d : Nat) :
    DiscardedBitsZero (a :: b :: c :: d :: vals) p ↔ DiscardedBitsZero vals p := by
  cases h with
  | nil => simp [DiscardedBitsZero]
  | twoPads => exact Iff.rfl
  | onePad => exact Iff.rfl
  | group => exact Iff.rfl

theorem b64Values_b64Decode_iff {vals : List Nat} {p : Nat} (h : B64Shape vals p) :
    b64Values (b64Decode vals p) = vals ++ List.replicate p padValue ↔ DiscardedBitsZero vals p := by
  induction h with
  | nil => simp [b64Decode, decodeGroups, b64Values, DiscardedBitsZero]
  | @twoPads a b ha hb =>
    rw [b64Decode_twoPads, b64Values_groupBytes_twoPads ha hb, discardedBitsZero_twoPads]
    calc [a, b / 16 * 16, padValue, padValue] = [a, b] ++ List.replicate 2 padValue ↔ b / 16 * 16 = b := by
          simp [List.replicate]
      _ ↔ b % 16 = 0 := by omega
  | @onePad a b c ha hb hc =>
    rw [b64Decode_onePad, b64Values_groupBytes_onePad ha hb hc, discardedBitsZero_onePad]
    calc [a, b, c / 4 * 4, padValue] = [a, b, c] ++ List.replicate 1 padValue ↔ c / 4 * 4 = c := by simp
      _ ↔ c % 4 = 0 := by omega
  | group ha hb hc hd hshape ih =>
    rw [b64Decode_group, b64Values_groupBytes_append ha hb hc hd, discardedBitsZero_group hshape, ← ih]
    simp

/-- An encoding parses to the shape of its values. -/
theorem b64Parse_b64Text (a : Bytes) :
    ∃ vals p, b64Parse (b64Text a) = some (vals, p) ∧ b64Values a = vals ++ List.replicate p padValue := by
  obtain ⟨vals, p, hshape, hvals, -⟩ := b64Values_shape a
  exact ⟨vals, p, b64Parse_eq_some_iff.2 ⟨hshape, by rw [b64Text, hvals, map_b64Render_append]⟩, hvals⟩

/-- An encoding is a given text exactly when it has that text's values. -/
theorem b64Text_eq_iff {a t : Bytes} {vals : List Nat} {p : Nat} (h : b64Parse t = some (vals, p)) :
    b64Text a = t ↔ b64Values a = vals ++ List.replicate p padValue := by
  constructor
  · rintro rfl
    obtain ⟨vals', p', hparse, hvals⟩ := b64Parse_b64Text a
    cases hparse.symm.trans h
    exact hvals
  · intro hvals
    rw [b64Text, hvals, map_b64Render_append, (b64Parse_eq_some_iff.1 h).2]

/-- Settles O54: decoding an encoding's values gives the bytes; encoding a text's bytes gives its values but for the
discarded bits. -/
theorem b64RoundTrips : Obligations.B64RoundTrips := by
  refine ⟨fun b => ?_, fun t vals p h => ?_⟩
  · obtain ⟨vals, p, hparse, hvals⟩ := b64Parse_b64Text b
    rw [b64Bytes, hparse, Option.map_some, b64Decode, ← hvals, decodeGroups_b64Values]
  · rw [b64Text_eq_iff h, b64Values_b64Decode_iff (b64Parse_eq_some_iff.1 h).1]
    rfl

/-! ## O19 and O20: B64ENC and B64DEC -/

/-- Settles O19: the operand is read, then the destination is checked for four bytes a group. -/
theorem b64encResult : Obligations.B64encResult := by
  refine ⟨decode_encode .b64enc, fun s L hrun => exec_of_readSource hrun (i := .b64enc) rfl fun _ _ hbody => ?_⟩
  exact exec_of_checkDst hrun hbody

theorem b64Decode_length {vals : List Nat} {p : Nat} (h : B64Shape vals p) :
    (b64Decode vals p).length = 3 * ((vals.length + p) / 4) - p := by
  induction h with
  | nil => rfl
  | twoPads ha hb => rw [b64Decode_twoPads, groupBytes_twoPads ha hb]; simp [unpackBytes]
  | onePad ha hb hc => rw [b64Decode_onePad, groupBytes_onePad ha hb hc]; simp [unpackBytes]
  | @group a b c d p vals ha hb hc hd hshape ih =>
    obtain ⟨-, hp, hmod⟩ := b64Shape_iff.1 hshape
    have hgroup : (groupBytes a b c d).length = 3 := by rw [groupBytes_of_lt ha hb hc hd]; rfl
    simp only [b64Decode_group, List.length_append, hgroup, ih, List.length_cons]
    omega

/-- Settles O20: a text that does not parse stops the command before its destination is checked. -/
theorem b64decResult : Obligations.B64decResult := by
  refine ⟨decode_encode .b64dec, fun s L hrun => exec_of_readSource hrun (i := .b64dec) rfl fun t _ hbody =>
    ⟨?_, ?_⟩⟩
  · intro hnone
    exact exec_of_body_err hrun (hbody.trans (by simp [b64Bytes, hnone]))
  · intro vals p hparse
    have hlen : (b64Decode vals p).length = 3 * (t.length / 4) - p := by
      obtain ⟨hshape, rfl⟩ := b64Parse_eq_some_iff.1 hparse
      simp [b64Decode_length hshape]
    refine ⟨hlen, exec_of_checkDst hrun (r := { out := some (b64Decode vals p) }) (hbody.trans ?_)⟩
    simp [b64Bytes, hparse]

end Sys2Proof.Machine
end

section
/-! PROOFS. Obligations O21 to O23, O55, O56 and O59 (44_frequency.md): the FrequencyDictionary commands. First the runs
between separators, then FREQ's table and the hit count, which rest on them; then DICTLOAD, WORDHITS and LETTERSCORE by
one rule for a check before the operand is read. -/

namespace Sys2Proof.Machine

/-! ## O56: the runs between separators -/

section
variable {sep : Byte → Bool}

/-- A separator ends the pieces before it and starts those after it. -/
theorem splitPieces_append_cons_of_sep {b : Byte} (hb : sep b = true) (s t : Bytes) :
    splitPieces sep (s ++ b :: t) = splitPieces sep s ++ splitPieces sep t := by
  induction s with
  | nil => exact splitPieces_cons_of_sep sep hb t
  | cons c s ih =>
    cases hc : sep c with
    | true => simp [splitPieces_cons_of_sep sep hc, ih]
    | false =>
      obtain ⟨p, ps, hs, hcs⟩ := splitPieces_cons_of_not_sep sep hc s
      obtain ⟨q, qs, hst, hcst⟩ := splitPieces_cons_of_not_sep sep hc (s ++ b :: t)
      rw [hst, hs, List.cons_append, List.cons.injEq] at ih
      obtain ⟨rfl, rfl⟩ := ih
      rw [List.cons_append, hcst, hcs, List.cons_append]

theorem splitPieces_of_no_sep {s : Bytes} (hs : ∀ c ∈ s, sep c = false) : splitPieces sep s = [s] := by
  induction s with
  | nil => rfl
  | cons b t ih =>
    obtain ⟨hb, ht⟩ := List.forall_mem_cons.1 hs
    simp [splitPieces, ih ht, hb]

theorem runs_append_cons_of_sep {b : Byte} (hb : sep b = true) (s t : Bytes) :
    runs sep (s ++ b :: t) = runs sep s ++ runs sep t := by
  rw [runs, splitPieces_append_cons_of_sep hb, List.filter_append]; rfl

theorem runs_of_no_sep {s : Bytes} (hne : s ≠ []) (hs : ∀ c ∈ s, sep c = false) : runs sep s = [s] := by
  simp [runs, splitPieces_of_no_sep hs, hne]

theorem ne_nil_of_mem_runs {s w : Bytes} (hw : w ∈ runs sep s) : w ≠ [] := by
  obtain ⟨-, hne⟩ := List.mem_filter.1 hw
  simpa using hne

/-- A run's bytes are among the bytes the runs hold together. -/
theorem not_sep_of_mem_runs {s w : Bytes} (hw : w ∈ runs sep s) : ∀ c ∈ w, sep c = false := by
  intro c hc
  have hmem : c ∈ s.filter (fun c => !sep c) := by
    rw [← runs_flatten]
    exact List.mem_flatten_of_mem hw hc
  obtain ⟨-, hsep⟩ := List.mem_filter.1 hmem
  simpa using hsep

end

theorem isNewline_eq_decide (c : Byte) : isNewline c = decide (c = 0x0A#8) := rfl

/-- WS_SET by the bytes' values (44_frequency.md R265). -/
theorem isSpace_eq_decide (c : Byte) :
    isSpace c = decide (c.toNat ∈ [0x09, 0x0A, 0x0B, 0x0C, 0x0D, 0x20]) := by
  simp [isSpace, ← BitVec.toNat_inj]

/-- Settles O56: the two separator sets, then each property of the runs. -/
theorem runsAreMaximal : Obligations.RunsAreMaximal := by
  refine ⟨fun d => ?_, fun t => ?_, fun sep s t b => ⟨fun w hw => ⟨ne_nil_of_mem_runs hw, not_sep_of_mem_runs hw⟩,
    runs_flatten sep s, fun hb => runs_append_cons_of_sep hb s t, runs_of_no_sep⟩⟩
  · rw [wordsOf, funext isNewline_eq_decide]
  · rw [tokensOf, funext isSpace_eq_decide]

/-! ## O55 and O59: FREQ's table and the hit count -/

theorem freqTable_getElem (d : Bytes) (b : Byte) :
    (freqTable d)[b.toNat]'b.isLt = BitVec.ofNat 32 (freqCount d b) := by
  simp [freqTable]

/-- No word holds a newline, and every other byte of the dictionary is in a word. -/
theorem freqCount_eq_ite (d : Bytes) (b : Byte) : freqCount d b = if b = 0x0A#8 then 0 else d.count b := by
  rw [freqCount_eq_count]
  split
  case isTrue hnewline => simp [List.count_eq_zero, isNewline, hnewline]
  case isFalse hother => exact List.count_filter (by simpa [isNewline] using hother)

/-- Settles O55: an entry is FreqTable's count, which R262 gives in both forms. -/
theorem freqTableCountsOccurrences : Obligations.FreqTableCountsOccurrences := fun d b =>
  ⟨freqTable_getElem d b, freqCount_eq_ite d b⟩

/-- Settles O59: the hits are some of the tokens, and each token needs a byte and a separator before the next. -/
theorem wordHitsBounded : Obligations.WordHitsBounded := fun d t =>
  ⟨List.countP_le_length, wordHitCount_le d t⟩

/-! ## O21 to O23: DICTLOAD, WORDHITS and LETTERSCORE -/

/-- Every outcome of a computation that makes one check before it reads its operand: the check's own failure, and, once
it passes, those of the read and of what follows it (40_command_cycle.md R146). -/
theorem exec_of_check_srcA {i : Instr} {s : State} {L : Latch} (hrun : s.Running L) {check : Cmd Unit} {e : ErrCode}
    {bad good : Prop} {k : Bytes → Cmd Report} {P : Bytes → Prop}
    (h : bodyOf i s L = check >>= fun _ => srcA s L >>= k)
    (hbad : bad → check = .error (.err e)) (hgood : good → check = .ok ())
    (hP : ∀ a, bodyOf i s L = k a → P a) :
    (bad → exec i s = .next (s.failed e)) ∧
    (good → ¬ s.Inside L.aAddr L.aLen.toNat → exec i s = .next (s.failed .addressRange)) ∧
    (good → s.Inside L.aAddr L.aLen.toNat → s.HasHole L.aAddr L.aLen.toNat →
      exec i s = .next (s.recordFault .uninitRead)) ∧
    ∀ a, good → s.Inside L.aAddr L.aLen.toNat → s.Holds L.aAddr L.aLen.toNat a → P a := by
  have hread (hg : good) := exec_of_readSource (P := P) hrun (h.trans (by rw [hgood hg, Cmd.ok_bind, srcA]))
    fun a _ => hP a
  rw [imp_and, imp_and] at hread
  obtain ⟨hout, hhole, hheld⟩ := hread
  refine ⟨fun hb => exec_of_body_err hrun ?_, hout, hhole, fun a hg => hheld hg a⟩
  rw [h, hbad hb, Cmd.error_bind]

/-- A computation that answers a new dictionary: the success with DICT, FREQ and DICT_VALID written as well
(40_command_cycle.md R144). -/
theorem exec_of_body_ok_dict {i : Instr} {s : State} {L : Latch} (hrun : s.Running L) {r : Report} {d : Bytes}
    (h : bodyOf i s L = .ok r) (hreset : r.reset = false) (hdict : r.dict = some d) :
    exec i s = .next { s.succeeded L (r.out.getD []) r.result r.key r.found with
      dict := d, freq := freqTable d, dictValid := true } := by
  rw [exec_eq_complete, State.complete_of_ok hrun h, State.applyOk_finish_dict s L r d hreset hdict]

/-- Settles O21: a loaded dictionary is refused before the source is read, and the capacity is checked last. -/
theorem dictloadResult : Obligations.DictloadResult := by
  refine ⟨decode_encode .dictload, fun s L hrun => exec_of_check_srcA hrun (i := .dictload) rfl
    (fun hvalid => by rw [hvalid, raiseIf_true]) (fun hnone => by rw [hnone, raiseIf_false])
    fun d hbody => ⟨fun hbig => ?_, fun hfits => ?_⟩⟩
  · exact exec_of_body_err hrun (hbody.trans (by simp [hbig]))
  · exact exec_of_body_ok_dict hrun (r := { dict := some d, result := (wordsOf d).length })
      (hbody.trans (by simp [hfits.not_gt])) rfl rfl

/-- Settles O22: the dictionary is required before the source is read, and the count needs no further check. -/
theorem wordhitsResult : Obligations.WordhitsResult :=
  ⟨decode_encode .wordhits, fun _ _ hrun => exec_of_check_srcA hrun (i := .wordhits) rfl requireDict_of_not
    requireDict_of_valid fun _ hbody => exec_of_body_ok hrun hbody⟩

/-- Settles O23: as O22, with LetterScore, the sum of FREQ over the text's bytes. -/
theorem letterscoreResult : Obligations.LetterscoreResult :=
  ⟨decode_encode .letterscore, fun _ _ hrun => exec_of_check_srcA hrun (i := .letterscore) rfl requireDict_of_not
    requireDict_of_valid fun _ hbody => exec_of_body_ok hrun hbody⟩

end Sys2Proof.Machine
end

section
/-! PROOFS. Obligations O57, O58, O24 and O25 (45_xor_breaker.md): the XorBreaker commands. First the 256 keys in their
order; then BREAKSCORE's loop, which keeps the maximum of the surviving candidates by score and then key, and
BREAKHITS's records; then the two results. -/

namespace Sys2Proof.Machine

/-! ## The keys (45_xor_breaker.md R290) -/

@[simp] theorem mem_breakKeys (k : Byte) : k ∈ breakKeys :=
  List.mem_map.2 ⟨k.toNat, List.mem_range.2 k.isLt, by simp⟩

theorem breakKeys_ascending : breakKeys.Pairwise (fun j k => j.toNat < k.toNat) := by
  refine List.pairwise_map.2 (List.pairwise_lt_range.imp_of_mem fun hm hn hlt => ?_)
  rw [List.mem_range] at hm hn
  rwa [BitVec.toNat_ofNat, BitVec.toNat_ofNat, Nat.mod_eq_of_lt hm, Nat.mod_eq_of_lt hn]

/-! ## O57: BREAKSCORE's loop -/

section
variable (freq : Vector (BitVec 32) 256) (c : Bytes)

/-- What BREAKSCORE retains for a key (45_xor_breaker.md R293). -/
def scored (k : Byte) : Best := { key := k, plain := candidate c k, score := letterScore freq (candidate c k) }

/-- What BREAKSCORE chooses among, for the given keys (45_xor_breaker.md R292). -/
def survivors (ks : List Byte) : List Best := (ks.filter (fun k => survives (candidate c k))).map (scored freq c)

/-- BREAKSCORE's preference: the score, then the key (45_xor_breaker.md R294). -/
def Best.rank (b : Best) : ℕ ×ₗ ℕ := toLex (b.score, b.key.toNat)

theorem Best.rank_le_iff {a b : Best} :
    a.rank ≤ b.rank ↔ a.score < b.score ∨ (a.score = b.score ∧ a.key.toNat ≤ b.key.toNat) :=
  Prod.Lex.toLex_le_toLex

theorem Best.rank_lt_iff {a b : Best} :
    a.rank < b.rank ↔ a.score < b.score ∨ (a.score = b.score ∧ a.key.toNat < b.key.toNat) :=
  Prod.Lex.toLex_lt_toLex

variable {freq c}

theorem mem_survivors {ks : List Byte} {b : Best} :
    b ∈ survivors freq c ks ↔ b.key ∈ ks ∧ survives (candidate c b.key) = true ∧ b = scored freq c b.key := by
  rw [survivors, List.mem_map]
  constructor
  · rintro ⟨k, hk, rfl⟩
    obtain ⟨hmem, hsurv⟩ := List.mem_filter.1 hk
    exact ⟨hmem, hsurv, rfl⟩
  · rintro ⟨hmem, hsurv, hb⟩
    exact ⟨b.key, List.mem_filter.2 ⟨hmem, hsurv⟩, hb.symm⟩

theorem survivors_concat_of_survives {k : Byte} (hk : survives (candidate c k) = true) (ks : List Byte) :
    survivors freq c (ks ++ [k]) = survivors freq c ks ++ [scored freq c k] := by
  simp [survivors, List.filter_append, hk]

theorem survivors_concat_of_not {k : Byte} (hk : ¬ survives (candidate c k) = true) (ks : List Byte) :
    survivors freq c (ks ++ [k]) = survivors freq c ks := by
  simp [survivors, List.filter_append, hk]

theorem keepBest_of_not {k : Byte} (hk : ¬ survives (candidate c k) = true) (best : Option Best) :
    keepBest freq c best k = best := if_neg hk

theorem keepBest_none {k : Byte} (hk : survives (candidate c k) = true) :
    keepBest freq c none k = some (scored freq c k) := if_pos hk

theorem keepBest_some {k : Byte} (hk : survives (candidate c k) = true) (b : Best) :
    keepBest freq c (some b) k = if b.score ≤ (scored freq c k).score then some (scored freq c k) else some b :=
  if_pos hk

/-- Against a smaller key, the loop's comparison of the scores alone is that of the ranks (90_conflicts.md C3). -/
theorem Best.rank_lt_scored_iff {b : Best} {k : Byte} (h : b.key.toNat < k.toNat) :
    b.rank < (scored freq c k).rank ↔ b.score ≤ (scored freq c k).score := by
  rw [Best.rank_lt_iff, le_iff_lt_or_eq, and_iff_left (show b.key.toNat < (scored freq c k).key.toNat from h)]

/-- Over ascending keys, the loop keeps the survivor of maximal rank. -/
theorem foldl_keepBest_eq_argmax {ks : List Byte} (h : ks.Pairwise (fun j k => j.toNat < k.toNat)) :
    ks.foldl (keepBest freq c) none = (survivors freq c ks).argmax Best.rank := by
  induction ks using List.reverseRecOn with
  | nil => rfl
  | append_singleton ks k ih =>
    obtain ⟨hks, -, hlast⟩ := List.pairwise_append.1 h
    rw [List.foldl_append, ih hks, List.foldl_cons, List.foldl_nil]
    by_cases hk : survives (candidate c k) = true
    case neg => rw [survivors_concat_of_not hk, keepBest_of_not hk]
    case pos =>
      rw [survivors_concat_of_survives hk, List.argmax_concat]
      cases hbest : (survivors freq c ks).argmax Best.rank with
      | none => exact keepBest_none hk
      | some b =>
        have hkey : b.key.toNat < k.toNat :=
          hlast b.key (mem_survivors.1 (List.argmax_mem hbest)).1 k (List.mem_singleton_self k)
        simp only [keepBest_some hk, Best.rank_lt_scored_iff hkey]

/-- A survivor is determined by its key, and so by its rank. -/
theorem eq_of_rank_le_of_mem_survivors {ks : List Byte} {a b : Best} (ha : a ∈ survivors freq c ks)
    (hb : b ∈ survivors freq c ks) (hab : a.rank ≤ b.rank) (hba : b.rank ≤ a.rank) : a = b := by
  obtain ⟨-, -, ha⟩ := mem_survivors.1 ha
  obtain ⟨-, -, hb⟩ := mem_survivors.1 hb
  have hkey : a.key = b.key := by
    have := Best.rank_le_iff.1 hab
    have := Best.rank_le_iff.1 hba
    exact BitVec.eq_of_toNat_eq (by omega)
  rw [ha, hb, hkey]

theorem searchByScore_eq_some_iff {b : Best} :
    searchByScore freq c = some b ↔
      b ∈ survivors freq c breakKeys ∧ ∀ a ∈ survivors freq c breakKeys, a.rank ≤ b.rank := by
  rw [searchByScore, foldl_keepBest_eq_argmax breakKeys_ascending, List.argmax_eq_some_iff]
  refine and_congr_right fun hb => and_iff_left_of_imp fun hmax a ha hba => ?_
  rw [eq_of_rank_le_of_mem_survivors ha hb (hmax a ha) hba]

theorem mem_survivors_breakKeys {b : Best} :
    b ∈ survivors freq c breakKeys ↔ survives (candidate c b.key) = true ∧ b.plain = candidate c b.key ∧
      b.score = letterScore freq (candidate c b.key) := by
  cases b
  simp [mem_survivors, scored]

theorem forall_mem_survivors_rank_le_iff {b : Best} :
    (∀ a ∈ survivors freq c breakKeys, a.rank ≤ b.rank) ↔
      ∀ k : Byte, survives (candidate c k) = true →
        letterScore freq (candidate c k) < b.score ∨
        (letterScore freq (candidate c k) = b.score ∧ k.toNat ≤ b.key.toNat) := by
  simp [survivors, Best.rank_le_iff, scored]

theorem reportedBest_eq_some_iff {b : Best} :
    reportedBest freq c = some b ↔ searchByScore freq c = some b ∧ 1 < b.score := by
  rw [reportedBest, Option.filter_eq_some_iff, decide_eq_true_iff]

end

/-- Settles O57: the loop's maximum by rank, written out over all keys, and the floor on its score. -/
theorem breakscoreSelectsGreatestKeyOfBestScore : Obligations.BreakscoreSelectsGreatestKeyOfBestScore := by
  intro freq c b
  rw [reportedBest_eq_some_iff, searchByScore_eq_some_iff, mem_survivors_breakKeys, forall_mem_survivors_rank_le_iff]
  tauto

/-! ## O58: BREAKHITS's records -/

theorem qualifies_iff {d c : Bytes} {k : Byte} :
    qualifies d c k = true ↔
      survives (candidate c k) = true ∧ c.length / 10 < wordHitCount d (candidate c k) := by
  simp [qualifies]

theorem mem_searchByHits {d c : Bytes} {k : Byte} {h : Nat} :
    (k, h) ∈ searchByHits d c ↔ qualifies d c k = true ∧ h = wordHitCount d (candidate c k) := by
  simp only [searchByHits, List.mem_map, List.mem_filter, mem_breakKeys, true_and, Prod.mk.injEq]
  constructor
  · rintro ⟨_, hqual, rfl, rfl⟩
    exact ⟨hqual, rfl⟩
  · rintro ⟨hqual, rfl⟩
    exact ⟨k, hqual, rfl, rfl⟩

theorem map_fst_searchByHits (d c : Bytes) :
    (searchByHits d c).map Prod.fst = breakKeys.filter (qualifies d c) := by
  rw [searchByHits, List.map_map]
  exact List.map_id _

/-- Settles O58: the records are the qualifying keys among all 256, in the keys' own order. -/
theorem breakhitsRecordsExactlyQualifyingKeys : Obligations.BreakhitsRecordsExactlyQualifyingKeys := by
  refine fun d c => ⟨fun k h => by rw [mem_searchByHits, qualifies_iff], ?_⟩
  have hkeys := breakKeys_ascending.filter (qualifies d c)
  rw [← map_fst_searchByHits, List.pairwise_map] at hkeys
  exact List.pairwise_map.2 hkeys

/-! ## O24 and O25: BREAKSCORE and BREAKHITS -/

/-- Settles O24: the destination is checked only once the search has a result. -/
theorem breakscoreResult : Obligations.BreakscoreResult := by
  refine ⟨decode_encode .breakscore, fun s L hrun => exec_of_check_srcA hrun (i := .breakscore) rfl requireDict_of_not
    requireDict_of_valid fun c hbody => ⟨fun hnone => ?_, fun b hsome => ?_⟩⟩
  · exact exec_of_body_ok hrun (r := {}) (hbody.trans (by simp only [hnone]; rfl))
  · exact exec_of_checkDst hrun (r := { out := some b.plain, result := b.score, key := b.key, found := true })
      (hbody.trans (by simp only [hsome]))

/-- Settles O25: the destination is checked for five bytes a record, however many there are. -/
theorem breakhitsResult : Obligations.BreakhitsResult :=
  ⟨decode_encode .breakhits, fun _ _ hrun => exec_of_check_srcA hrun (i := .breakhits) rfl requireDict_of_not
    requireDict_of_valid fun _ hbody => exec_of_checkDst hrun hbody⟩

end Sys2Proof.Machine
end

section
/-! PROOFS. Obligations O12 and O13 (46_control.md): the control commands NOP and RESET. -/

namespace Sys2Proof.Machine

/-- Settles O12: NOP's computation is the empty report, so its success writes no byte and zero results. -/
theorem nopCompletesWithZeroResults : Obligations.NopCompletesWithZeroResults :=
  ⟨decode_encode .nop, fun _ _ hrun => exec_of_body_ok hrun (i := .nop) (r := {}) rfl⟩

/-- Resetting the registers gives the power-on state but for the parameters, DMEM, the recorded model fault and the
environment (46_control.md R321, 70_reset_and_hazards.md R383). -/
theorem State.resetRegs_eq_reset (s : State) :
    s.resetRegs =
      { State.reset with
        cfg := s.cfg
        dmem := s.dmem
        modelFault := s.modelFault
        host := s.host
        turns := s.turns
        draws := s.draws } := rfl

/-- Settles O13: RESET's completion resets the registers and sets DONE; a running engine has no model fault to keep. -/
theorem resetCommandClearsRegistersKeepsDmem : Obligations.ResetCommandClearsRegistersKeepsDmem := by
  refine ⟨decode_encode .reset, fun s L hrun => ?_⟩
  have hfault : s.modelFault = none := hrun.1
  rw [exec_reset_of_running hrun, State.resetRegs_eq_reset, hfault]
  rfl

end Sys2Proof.Machine
end

section
/-! PROOFS. Obligations O44, O30, O45 and O46 (70_reset_and_hazards.md R380 to R384): the resets. First the turn of the
reset input and the power-on turn; then the bytes an abandoned command might have written, and that no completed command
writes more. -/

namespace Sys2Proof.Machine

/-! ## O44: the reset input -/

theorem step_of_reset {s : State} (ht : s.nextTurn = .reset) : step s = .next s.popTurn.hardReset := by
  simp only [step, ht]

theorem State.dmemAfterReset_of_idle {s : State} (hidle : s.busy = false) : s.dmemAfterReset = s.dmem := by
  have hL : s.latched = none := by simpa [State.busy] using hidle
  simp only [State.dmemAfterReset, hL]

theorem State.dmemAfterReset_of_latched {s : State} {L : Latch} (hL : s.latched = some L) :
    s.dmemAfterReset = s.dmem.forget L.dAddr.toNat (min s.cfg.dmemSize (L.dAddr.toNat + latchBound L)) := by
  simp only [State.dmemAfterReset, hL]

/-- Settles O44: beside DMEM a hard reset is `State.resetRegs`, and without a record it has no byte to forget. -/
theorem hardResetRegisters : Obligations.HardResetRegisters := by
  refine fun s ht => ⟨s.popTurn.hardReset, step_of_reset ht, ?_, fun hidle => ?_⟩
  · rw [State.hardReset, State.resetRegs_eq_reset]
    rfl
  · exact State.dmemAfterReset_of_idle (s := s.popTurn) hidle

/-! ## O30: power-on -/

theorem step_of_powerOn {s : State} (ht : s.nextTurn = .powerOn) : step s = .next s.popTurn.powerOn := by
  simp only [step, ht]

/-- The power-on state has the invariant whatever the block's parameters are (00_scope.md R8). -/
theorem State.inv_reset_cfg {p : Params} (hp : p.wf = true) : State.Inv { State.reset with cfg := p } where
  cfg_wf := hp
  dmem_wf := rfl
  dmem_below := rfl
  dict_cap := Nat.zero_le _
  freq_memo := freqTable_nil.symm
  dict_empty := fun _ => rfl
  err_iff := by simp [State.reset]
  errcode_le := Nat.zero_le _
  busy_not_done := fun _ => rfl

theorem State.regValue_reset (r : RegName) : State.reset.regValue r = if r = .id then idValue else 0#32 := by
  cases r with
  | freq b => simp [State.regValue, State.reset]
  | _ => rfl

/-- Settles O30: a power-on turn is `State.resetRegs` and takes every byte's value away. -/
theorem invariantHoldsAtReset : Obligations.InvariantHoldsAtReset := by
  refine ⟨State.inv_reset_cfg (p := State.reset.cfg) rfl, fun _ => State.inv_reset_cfg, State.regValue_reset, rfl, rfl,
    Memory.read_nil, fun s ht => ?_⟩
  rw [step_of_powerOn ht, State.powerOn, State.resetRegs_eq_reset]
  rfl

/-! ## O45: the bytes an abandoned command might have written -/

theorem latchBound_of_ok {L : Latch} {i : Instr} (h : decode L.cmd = .ok i) : latchBound L = outputBound L i := by
  simp only [latchBound, h]

theorem latchBound_of_error {L : Latch} {e : DecodeError} (h : decode L.cmd = .error e) : latchBound L = 0 := by
  simp only [latchBound, h]

/-- A word outside the table's rows, an illegal one among them, has the bound 0. -/
theorem latchBound_eq_zero {L : Latch}
    (h : decode L.cmd ∉ [.ok .hexenc, .ok .hexdec, .ok .xor, .ok .repxor, .ok .breakscore, .ok .b64enc, .ok .b64dec,
      .ok .breakhits]) : latchBound L = 0 := by
  cases hd : decode L.cmd with
  | error e => exact latchBound_of_error hd
  | ok i =>
    rw [latchBound_of_ok hd]
    cases i with
    | nop | hamming | dictload | wordhits | letterscore | reset => rfl
    | _ => exact absurd (by simp [hd]) h

/-- Settles O45: a hard reset forgets exactly the range of the record in flight; the bounds are the table's rows. -/
theorem hardResetLosesDestinationBytes : Obligations.HardResetLosesDestinationBytes := by
  refine ⟨fun s L ht hL => ⟨s.popTurn.hardReset, step_of_reset ht, rfl, fun x => ?_⟩, fun L => ?_⟩
  · have hdmem := State.dmemAfterReset_of_latched (s := s.popTurn) hL
    exact (congrArg (Memory.read · x) hdmem).trans (Memory.read_forget _ _ _ x)
  · refine ⟨latchBound_of_ok, latchBound_of_ok, fun hmem => ?_, latchBound_of_ok, latchBound_of_ok, latchBound_of_ok,
      latchBound_eq_zero⟩
    simp only [List.mem_cons, List.not_mem_nil, or_false] at hmem
    rcases hmem with hd | hd | hd <;> exact latchBound_of_ok hd

/-! ## O46: Bound(L) and OUT_LEN -/

theorem srcA_length {s : State} {L : Latch} {a : Bytes} (h : srcA s L = .ok a) : a.length = L.aLen.toNat := by
  obtain ⟨-, hlen, -⟩ := readSource_eq_ok h
  exact hlen

theorem b64Bytes_length_le {t out : Bytes} (h : b64Bytes t = some out) : out.length ≤ 3 * (t.length / 4) := by
  obtain ⟨⟨vals, p⟩, hparse, rfl⟩ := Option.map_eq_some_iff.1 h
  obtain ⟨hshape, rfl⟩ := b64Parse_eq_some_iff.1 hparse
  simp [b64Decode_length hshape]

/-- The output of a successful computation is within the command's row of R384's table. -/
theorem bodyOf_out_le_outputBound {i : Instr} {s : State} {L : Latch} {r : Report} (h : bodyOf i s L = .ok r) :
    (r.out.getD []).length ≤ outputBound L i := by
  cases i with
  | nop | hamming | dictload | wordhits | letterscore => simp [bodyOf_out_eq_none (by simp) h]
  | reset => cases h; exact Nat.zero_le _
  | hexenc =>
    obtain ⟨a, ha, -, rfl⟩ := hexencBody_ok h
    simp [outputBound, srcA_length ha]
  | hexdec =>
    obtain ⟨t, out, ht, -, hbytes, -, rfl⟩ := hexdecBody_ok h
    simp [outputBound, hexBytes_length hbytes, srcA_length ht]
  | xor =>
    obtain ⟨a, b, ha, -, hlen, -, rfl⟩ := xorBody_ok h
    simp [outputBound, xorBytes_length hlen, srcA_length ha]
  | repxor =>
    obtain ⟨a, k, ha, -, -, -, rfl⟩ := repxorBody_ok h
    simp [outputBound, srcA_length ha]
  | b64enc =>
    obtain ⟨a, ha, -, rfl⟩ := b64encBody_ok h
    simp [outputBound, srcA_length ha]
  | b64dec =>
    obtain ⟨t, out, ht, hbytes, -, rfl⟩ := b64decBody_ok h
    simpa [outputBound, srcA_length ht] using b64Bytes_length_le hbytes
  | breakscore =>
    obtain ⟨c, -, hc, ⟨-, rfl⟩ | ⟨b, hbest, -, rfl⟩⟩ := breakscoreBody_ok h
    · exact Nat.zero_le _
    · simp [outputBound, reportedBest_plain_length hbest, srcA_length hc]
  | breakhits =>
    obtain ⟨c, -, -, -, rfl⟩ := breakhitsBody_ok h
    have hhits : (searchByHits s.dict c).length ≤ 256 := searchByHits_length_le s.dict c
    simp only [Option.getD_some, flatMap_hitRecord_length, outputBound]
    omega

/-- OUT_LEN is at most the output's length, which it holds modulo 2^32 (log 16); RESET clears it. -/
theorem State.applyOk_outLen_le (s : State) (L : Latch) (r : Report) :
    (s.applyOk L r).outLen.toNat ≤ (r.out.getD []).length := by
  unfold State.applyOk
  split
  · exact Nat.zero_le _
  · simpa using Nat.mod_le _ _

/-- Settles O46: a success writes its output alone, a failure nothing, and a recorded fault leaves BUSY 1. -/
theorem outputNeverExceedsBound : Obligations.OutputNeverExceedsBound := by
  intro i s t L hrun hdec h hidle
  obtain ⟨-, hL⟩ := hrun
  rw [latchBound_of_ok hdec]
  rw [exec_eq_complete] at h
  obtain ⟨L', ⟨-, hL'⟩, ⟨r, hok, rfl⟩ | ⟨c, -, rfl⟩ | ⟨f, -, rfl⟩⟩ := State.complete_cases h
  · obtain rfl : L' = L := Option.some.inj (hL'.symm.trans hL)
    exact (s.applyOk_outLen_le L' r).trans (bodyOf_out_le_outputBound hok)
  · exact Nat.zero_le _
  · simp [State.busy, hL] at hidle

end Sys2Proof.Machine
end

section
/-! PROOFS. Obligations O6 and O11 (60_exceptions.md R343, 70_reset_and_hazards.md R397): what becomes of every issued
word. First the completion of an illegal word; then the host's turn, which leaves a command in flight as it is; then the
progress of the run, by induction on the schedule. -/

namespace Sys2Proof.Machine

/-! ## O6: illegal words -/

theorem exists_decode_error {w : Word} (h : w.toNat / 256 ≠ 0 ∨ IsUnassigned (w.toNat % 256)) :
    ∃ e, decode w = .error e := by
  rcases decode_cases w with ⟨-, hd⟩ | ⟨i, rfl, -⟩ | ⟨-, -, hd⟩
  · exact ⟨_, hd⟩
  · obtain ⟨hrsvd, hassigned⟩ := encode_assigned i
    have hmod : (encode i).toNat % 256 = (encode i).toNat := by omega
    rw [hmod] at h
    exact (h.elim (· hrsvd) hassigned).elim
  · exact ⟨_, hd⟩

theorem step_of_engine_illegal {s : State} {L : Latch} {e : DecodeError} (ht : s.nextTurn = .engine)
    (hrun : s.Running L) (hd : decode L.cmd = .error e) : step s = .next (s.popTurn.failed .illegalCommand) := by
  obtain ⟨hfault, hL⟩ := hrun
  have hstep : step s = execIllegal s.popTurn := by simp only [step, ht, hL, hd]
  exact hstep.trans (State.complete_of_err (L := L) ⟨hfault, hL⟩ rfl)

/-- Settles O6: the decoder rejects the word, and its completion looks at no operand. -/
theorem illegalWordCompletesWithCode3 : Obligations.IllegalWordCompletesWithCode3 := by
  refine ⟨rfl, fun s L ht hrun hillegal => ?_⟩
  obtain ⟨e, hd⟩ := exists_decode_error hillegal
  exact step_of_engine_illegal ht hrun hd

/-! ## The labels of a host program -/

theorem labelIndex_of_mem {l : Label} {prog : List HostStmt} (h : l ∈ labelsOf prog) :
    ∃ j, labelIndex l prog = some j := by
  induction prog with
  | nil => cases h
  | cons st t ih =>
    by_cases hst : st = .mark l
    · exact ⟨0, if_pos hst⟩
    · have ht : l ∈ labelsOf t := by
        cases st with
        | mark k => exact (List.mem_cons.1 h).resolve_left fun hk => hst (hk ▸ rfl)
        | access _ | bitNZ _ _ _ | halt => exact h
      obtain ⟨j, hj⟩ := ih ht
      exact ⟨j + 1, by simp [labelIndex, hst, hj]⟩

theorem mem_of_branchesDefined {ls : List Label} {prog : List HostStmt} {r : RegName} {bit : Nat} {l : Label}
    (h : branchesDefined ls prog = true) (hmem : .bitNZ r bit l ∈ prog) : l ∈ ls := by
  induction prog with
  | nil => cases hmem
  | cons st t ih =>
    cases hmem with
    | head =>
      simp only [branchesDefined, Bool.and_eq_true, List.contains_iff_mem] at h
      obtain ⟨hl, -⟩ := h
      exact hl
    | tail _ hmem =>
      cases st with
      | bitNZ r' bit' l' =>
        simp only [branchesDefined, Bool.and_eq_true] at h
        obtain ⟨-, ht⟩ := h
        exact ih ht hmem
      | access _ | mark _ | halt => exact ih h hmem

theorem HostAgent.mem_program_of_current {h : HostAgent} {st : HostStmt} (hcur : h.current = some st) :
    st ∈ h.program := by
  unfold HostAgent.current at hcur
  split at hcur
  · cases hcur
  · exact List.mem_of_getElem? hcur

/-! ## The host's turn -/

/-- Every branch of the host's program has its label (30_encoding.md R116). -/
abbrev State.LabelsDefined (s : State) : Prop := branchesDefined (labelsOf s.host.program) s.host.program = true

/-- Only a branch without its label is refused (log 12), and only a host at its end sees a recorded fault (log 8). -/
theorem State.exists_hostStep {s : State} (hfault : s.modelFault = none) (hlabels : s.LabelsDefined) :
    ∃ t, s.hostStep = .next t := by
  unfold State.hostStep
  split
  · exact ⟨_, rfl⟩
  · exact ⟨_, rfl⟩
  · rename_i r bit l hcur
    have hmem : l ∈ labelsOf s.host.program :=
      mem_of_branchesDefined hlabels (HostAgent.mem_program_of_current hcur)
    obtain ⟨j, hj⟩ := labelIndex_of_mem hmem
    simp only [State.hostBranch, hj]
    split <;> exact ⟨_, rfl⟩
  · exact ⟨_, rfl⟩
  · exact ⟨_, by rw [hfault]⟩

/-- From s to t the record in flight stays, the host's program and the schedule. -/
structure State.KeepsFlight (s t : State) : Prop where
  latched : t.latched = s.latched
  program : t.host.program = s.host.program
  turns : t.turns = s.turns

theorem State.KeepsFlight.of_eq {s t : State} (hlatched : t.latched = s.latched := by rfl)
    (hprogram : t.host.program = s.host.program := by rfl) (hturns : t.turns = s.turns := by rfl) :
    s.KeepsFlight t :=
  ⟨hlatched, hprogram, hturns⟩

/-- A CMD write while BUSY = 1 does not issue (40_command_cycle.md R141). -/
theorem State.writeReg_keepsFlight {s : State} (hbusy : s.busy = true) (r : RegName) (v : Word) :
    s.KeepsFlight (s.writeReg r v) := by
  rcases s.writeReg_cases r v with
    ⟨-, hidle, -⟩ | ⟨-, -, e⟩ | ⟨-, -, e⟩ | ⟨-, e⟩ | ⟨-, e⟩ | ⟨-, e⟩ | ⟨-, e⟩ | ⟨-, e⟩ | e
  · rw [hbusy] at hidle; cases hidle
  all_goals rw [e]; exact .of_eq

theorem State.hostAccess_keepsFlight {s : State} (hbusy : s.busy = true) (a : Access) :
    s.KeepsFlight (s.hostAccess a) := by
  rcases s.hostAccess_cases a with ⟨host, n, e, hprogram, -⟩ | ⟨f, e⟩ | ⟨r, v, e⟩ | ⟨_, _, -, -, e⟩
  · rw [e]; exact .of_eq (hprogram := hprogram)
  · rw [e]; exact .of_eq
  · rw [e]; exact State.writeReg_keepsFlight hbusy r v
  · rw [e]; exact .of_eq

theorem State.hostStep_keepsFlight {s t : State} (hbusy : s.busy = true) (h : s.hostStep = .next t) :
    s.KeepsFlight t := by
  rcases State.hostStep_cases h with ⟨a, -, rfl⟩ | ⟨host, n, rfl, hprogram⟩
  · obtain ⟨hlatched, hprogram, hturns⟩ := State.hostAccess_keepsFlight hbusy a
    exact ⟨hlatched, hprogram, hturns⟩
  · exact .of_eq (hprogram := hprogram)

/-! ## O11: progress -/

/-- The engine's turn ends what it finds in flight: every word completes, or records UninitRead. -/
theorem step_of_engine_running {s : State} {L : Latch} (ht : s.nextTurn = .engine) (hrun : s.Running L) :
    ∃ t, step s = .next t ∧ (t.modelFault ≠ none ∨ t.busy = false ∧ t.done = true) := by
  cases hd : decode L.cmd with
  | error e => exact ⟨_, step_of_engine_illegal ht hrun hd, .inr ⟨rfl, rfl⟩⟩
  | ok i =>
    obtain ⟨hfault, hL⟩ := hrun
    obtain ⟨t, hexec, hend⟩ := everyCommandCompletesOrRecordsUninitRead i s.popTurn L ⟨hfault, hL⟩
    refine ⟨t, (step_of_engine ht hL hd).trans hexec, ?_⟩
    rcases hend with ⟨hidle, hdone, -⟩ | rfl
    · exact .inr ⟨hidle, hdone⟩
    · exact .inl nofun

/-- A state in which the command in flight has come to an end under the schedule us: a model fault, or BUSY 0, and
DONE 1 unless us abandons commands. -/
def State.Settled (us : List Turn) (t : State) : Prop :=
  t.modelFault ≠ none ∨ t.busy = false ∧ ((∀ u ∈ us, u ≠ .reset ∧ u ≠ .powerOn) → t.done = true)

theorem State.Settled.cons {us : List Turn} {t : State} (h : t.Settled us) (u : Turn) : t.Settled (u :: us) :=
  h.imp_right fun ⟨hidle, hdone⟩ => ⟨hidle, fun hall => hdone (List.forall_mem_cons.1 hall).2⟩

/-- A reset or a power-on on the schedule may leave DONE 0. -/
theorem State.Settled.of_abandoned {us : List Turn} {u : Turn} {t : State} (hu : u = .reset ∨ u = .powerOn)
    (hidle : t.busy = false) : t.Settled (u :: us) := by
  refine .inr ⟨hidle, fun hall => ?_⟩
  obtain ⟨hreset, hpower⟩ := hall u List.mem_cons_self
  exact (hu.elim hreset hpower).elim

theorem run_succ_of_step {s t : State} (h : step s = .next t) (n : Nat) :
    Host.Core.run core (n + 1) s = Host.Core.run core n t := by
  have hcore : core.step s = .next t := h
  simp only [Host.Core.run, hcore]

/-- Under the schedule us, s runs to a settled state within one step more than us is long. -/
def State.Settles (us : List Turn) (s : State) : Prop :=
  ∃ n t, n ≤ us.length + 1 ∧ Host.Core.run core n s = .next t ∧ t.Settled us

theorem State.Settles.of_step {us : List Turn} {s t : State} (h : step s = .next t) (ht : t.Settled us) :
    s.Settles us :=
  ⟨1, t, Nat.le_add_left 1 _, run_succ_of_step h 0, ht⟩

theorem State.Settles.cons {us : List Turn} {u : Turn} {s t : State} (h : step s = .next t) (ht : t.Settles us) :
    s.Settles (u :: us) := by
  obtain ⟨n, t', hn, hrun, hsettled⟩ := ht
  exact ⟨n + 1, t', Nat.succ_le_succ hn, (run_succ_of_step h n).trans hrun, hsettled.cons u⟩

theorem State.Settles.of_engine {us : List Turn} {s : State} (hbusy : s.busy = true) (hfault : s.modelFault = none)
    (ht : s.nextTurn = .engine) : s.Settles us := by
  obtain ⟨L, hL⟩ := Option.isSome_iff_exists.1 hbusy
  obtain ⟨t, hstep, hend⟩ := step_of_engine_running ht ⟨hfault, hL⟩
  exact .of_step hstep (hend.imp_right fun ⟨hidle, hdone⟩ => ⟨hidle, fun _ => hdone⟩)

/-- The host's turns leave the command in flight until another agent's turn ends it, the engine's after the schedule at
the latest (log 7). -/
theorem State.settles_turns (us : List Turn) {s : State} (hturns : s.turns = us) (hbusy : s.busy = true)
    (hfault : s.modelFault = none) (hlabels : s.LabelsDefined) : s.Settles us := by
  induction us generalizing s with
  | nil => exact .of_engine hbusy hfault (by simp [State.nextTurn, hturns, hbusy, hfault])
  | cons u us ih =>
    have ht : s.nextTurn = u := by simp only [State.nextTurn, hturns]
    cases u with
    | engine => exact .of_engine hbusy hfault ht
    | reset => exact .of_step (step_of_reset ht) (.of_abandoned (.inl rfl) rfl)
    | powerOn => exact .of_step (step_of_powerOn ht) (.of_abandoned (.inr rfl) rfl)
    | host =>
      obtain ⟨t, hhost⟩ := State.exists_hostStep (s := s.popTurn) hfault hlabels
      have hstep : step s = .next t := (step_of_host ht).trans hhost
      obtain ⟨hlatched, hprogram, hrest⟩ := State.hostStep_keepsFlight (s := s.popTurn) hbusy hhost
      by_cases hfault' : t.modelFault = none
      · have hus : t.turns = us := by rw [hrest, State.popTurn_turns, hturns, List.tail_cons]
        have hbusy' : t.busy = true := (congrArg Option.isSome hlatched).trans hbusy
        have hlabels' : t.LabelsDefined := by rw [State.LabelsDefined, hprogram]; exact hlabels
        exact .cons hstep (ih hus hbusy' hfault' hlabels')
      · exact .of_step hstep (.inl hfault')

/-- Settles O11: the state runs along its own schedule. -/
theorem issuedCommandCompletesInBoundedSteps : Obligations.IssuedCommandCompletesInBoundedSteps :=
  fun s hbusy hfault hlabels => State.settles_turns s.turns rfl hbusy hfault hlabels

end Sys2Proof.Machine
end
